-- ==== Sys2Proof/Word.lean ====
section
/-! DEFINITION. The word types of the block: bytes on the bus, 16-bit hit counters and DATA fields,
32-bit command and response words (20_memory.md R77, R79). -/

namespace Sys2Proof

/-- A byte of a bus frame, an 8-bit operand field, a transceiver register value (R71, R101). -/
abbrev Byte := BitVec 8

/-- A hit counter, a DATA field, the STATUS word (R48, R105, R49). -/
abbrev Half := BitVec 16

/-- A command word or a response word (R100, R105). -/
abbrev Word := BitVec 32

/-- A transceiver register address: 5 bits, 0..31 (R71). -/
abbrev RegAddr := BitVec 5

end Sys2Proof
end

