-- ==== Sys2Proof/Config.lean ====
section
/-! DEFINITION. What is fixed for an instance: the constants of 00_scope.md R12, the configuration
record of 10_state.md R40, the shapes of the environment's answers (R14), and the free values that
stand for answers no input list holds. -/

namespace Sys2Proof

namespace Config

/-- NUM_CHANNELS (R12): the one channel count, for sizing, clipping and range checks. -/
def numChannels : Nat := 126

/-- T_CH_SETTLE_US (R12, R245), in microseconds. -/
def chSettleUs : Nat := 150

/-- T_PU_SETTLE_US (R12, R246), in microseconds. -/
def puSettleUs : Nat := 2000

end Config

/-- A channel the transceiver can tune to, 0..125 (R17). -/
abbrev Channel := Fin 126

/-- A chip-select or enable line number: opaque, 0..255 (R12; 93_implementation_defined.md §3). -/
abbrev Line := Fin 256

/-- A bus identity, `BUS_ID` (R12): opaque, only compared and passed on. -/
structure BusId where
  id : Nat
deriving DecidableEq, Repr

/-- A device reference the transport hands out (R14, R45): opaque, only compared and passed on. -/
structure DevRef where
  id : Nat
deriving DecidableEq, Repr, Inhabited

/-- `SPI_MODE` (R12): the one mode the block passes to the transport, clock idle low and data
sampled on the leading edge. -/
inductive SpiMode where
  | idleLowLeadingEdge
deriving DecidableEq, Repr

/-- The configuration record `CFG` of one instance (R40), never written once the instance is built
(R11). The register-map fields are bits that go on the bus, so they have the bus's widths, and the
address and value ranges of R41 hold by type. -/
structure Cfg where
  busId          : BusId
  csLine         : Line
  enLine         : Line
  spiClkHz       : Nat
  maxClkHz       : Nat
  spiMode        : SpiMode
  winStart       : Nat
  winCount       : Nat
  sweepsPerCycle : Nat
  addrConfig     : RegAddr
  addrEnAa       : RegAddr
  addrRfCh       : RegAddr
  addrRfSetup    : RegAddr
  addrRpd        : RegAddr
  valEnAa        : Byte
  valRfSetup     : Byte
  valConfig      : Byte
  filler         : Byte
deriving DecidableEq, Repr

/-- The configuration `State.reset` is built with: the defaults of R12 where it gives one
(`SWEEPS_PER_CYCLE`, `ADDR_*`, `VAL_*`, `FILLER`). DESIGN CHOICE (log 1): a value for each OPEN
parameter (bus 0, lines 0 and 1, clock and maximum clock 10 MHz, window (0, 126)). No statement
rests on it: statements range over every configuration. Unsafe. -/
def Cfg.default : Cfg where
  busId := ⟨0⟩
  csLine := 0
  enLine := 1
  spiClkHz := 10000000
  maxClkHz := 10000000
  spiMode := .idleLowLeadingEdge
  winStart := 0
  winCount := 126
  sweepsPerCycle := 50
  addrConfig := 0x00
  addrEnAa := 0x01
  addrRfCh := 0x05
  addrRfSetup := 0x06
  addrRpd := 0x09
  valEnAa := 0x00
  valRfSetup := 0x06
  valConfig := 0x0B
  filler := 0xFF

/-- The answer to `AttachReq` (R14): `Ok(ref)` or `Err`. -/
inductive AttachAnswer where
  | ok (ref : DevRef)
  | err
deriving DecidableEq, Repr, Inhabited

/-- The answer to `Xfer` (R14): `Ok(rx0, rx1)` or `Err`. -/
inductive XferAnswer where
  | ok (rx0 rx1 : Byte)
  | err
deriving DecidableEq, Repr, Inhabited

/-- FREE VALUE (R10, R14, log 2): the answer to the free draw of that number of the instance with
that chip-select line, for an `AttachReq` that the state's input list holds no answer for. It has no
body: nothing can be proved of it. DESIGN CHOICE (log 2): the line names the instance's own stream of
draws, since no two instances of a system have one line (10_state.md R41), so the draws of two
instances are under no law. -/
opaque Config.freeAttach : Line → Nat → AttachAnswer

/-- FREE VALUE (R10, R14, R81, log 2): the answer to the free draw of that number of the instance
with that chip-select line, for an `Xfer` that the state's input list holds no answer for. It has no
body: nothing can be proved of it. DESIGN CHOICE (log 2): a stream of draws for each line, as for
`Config.freeAttach`. -/
opaque Config.freeXfer : Line → Nat → XferAnswer

end Sys2Proof
end

