-- ==== Sys2Proof/Syntax.lean ====
section
/-! DEFINITION. The instructions: one constructor for each row of spec/opcode_table.json (the
twelve commands of 30_encoding.md R104 and the two bus frames of R111 and R112), and the assembler
lines of R114 and R115. Fields a command does not use are ignored (R102), so no constructor holds
them. -/

namespace Sys2Proof

/-- One instruction: a command of the command port, or a frame of the bus. -/
inductive Instr where
  /-- NOP (41_device_fsm.md R151). -/
  | nop
  /-- ATTACH (41_device_fsm.md R152). -/
  | attach
  /-- CONFIGURE (41_device_fsm.md R154). -/
  | configure
  /-- POWER_UP (41_device_fsm.md R155). -/
  | powerUp
  /-- READ_REG a8 (40_register_link.md R135): FA. -/
  | readReg (a8 : Byte)
  /-- WRITE_REG a8, v (40_register_link.md R136): FA and FC. -/
  | writeReg (a8 v : Byte)
  /-- BUSY_TEST c (42_band_scanner.md R181): FA. -/
  | busyTest (c : Byte)
  /-- SWEEP start, count (42_band_scanner.md R184): FA and FB. -/
  | sweep (start count : Byte)
  /-- CLEAR_TABLE (42_band_scanner.md R187). -/
  | clearTable
  /-- CYCLE (42_band_scanner.md R188). -/
  | cycle
  /-- READ_HIT c (42_band_scanner.md R196): FA. -/
  | readHit (c : Byte)
  /-- READ_STATUS (41_device_fsm.md R157). -/
  | readStatus
  /-- R_FRAME, the read frame (30_encoding.md R111): its address bits. -/
  | rFrame (a : RegAddr)
  /-- W_FRAME, the write frame (30_encoding.md R112): its address bits and its data byte. -/
  | wFrame (a : RegAddr) (v : Byte)
deriving DecidableEq, Repr

/-- Where an instruction stands in its encoded form: a word of the command port (R100), or the two
bytes of a frame, `tx0` then `tx1` (R110). -/
inductive Encoded where
  | command (w : Word)
  | frame (tx0 tx1 : Byte)
deriving DecidableEq, Repr

/-- The mnemonics of the assembler syntax (R114): the commands, and `.word`. -/
inductive Mnemonic where
  | nop | attach | configure | powerUp | readReg | writeReg | busyTest | sweep | clearTable | cycle
  | readHit | readStatus
  /-- `.word`, a raw command word. -/
  | rawWord
deriving DecidableEq, Repr

/-- An assembler line (R114): a mnemonic and its operands, numbers of any size. -/
structure AsmLine where
  mnemonic : Mnemonic
  operands : List Nat
deriving DecidableEq, Repr

/-- The pseudo-commands of R115, which the host expands. -/
inductive Pseudo where
  | bringup
  | sweepWin
  | report
deriving DecidableEq, Repr

end Sys2Proof
end

