-- ==== Sys2Proof/WellFormed.lean ====
section
/-! DEFINITION. The checks: a well-formed configuration (10_state.md R41), the lines of several
instances (R41), and an assembler line's operands (30_encoding.md R114).

An `Instr` needs no check of its own: every operand is an unsigned field taken as is (R101), its
type has exactly the field's values, and every value of it is encodable. What the spec does check
of an operand (a channel of 126 or more) is the command's own ERR_RANGE, not a form. -/

namespace Sys2Proof

/-- `0 < SPI_CLK_HZ <= MAX_CLK_HZ` (R41). -/
def Cfg.clockOk (c : Cfg) : Bool := decide (0 < c.spiClkHz) && decide (c.spiClkHz ≤ c.maxClkHz)

/-- `WIN_START` and `WIN_COUNT` are each in 0..255 (R41). -/
def Cfg.windowOk (c : Cfg) : Bool := decide (c.winStart ≤ 255) && decide (c.winCount ≤ 255)

/-- `SWEEPS_PER_CYCLE` is in 0..65535 (R41). -/
def Cfg.sweepsOk (c : Cfg) : Bool := decide (c.sweepsPerCycle ≤ 65535)

/-- No line serves as both chip-select and enable (R41). -/
def Cfg.linesOk (c : Cfg) : Bool := decide (c.csLine ≠ c.enLine)

/-- A well-formed configuration of one instance (R41). The ranges R41 gives the address and value
fields hold by their types. -/
def Cfg.wellFormed (c : Cfg) : Bool := c.clockOk && c.windowOk && c.sweepsOk && c.linesOk

/-- Every `CS_LINE` and `EN_LINE` value of all these instances is used once (R41, C9). -/
def linesDistinct (cs : List Cfg) : Bool :=
  decide ((cs.flatMap fun c => [c.csLine, c.enLine]).Nodup)

/-- The most a command operand may be: no field holds more (R114). A raw word holds 32 bits. -/
def Mnemonic.operandMax : Mnemonic → Nat
  | .rawWord => 0xFFFFFFFF
  | _ => 255

/-- How many operands a mnemonic takes (R104, R114). -/
def Mnemonic.arity : Mnemonic → Nat
  | .nop | .attach | .configure | .powerUp | .clearTable | .cycle | .readStatus => 0
  | .readReg | .busyTest | .readHit | .rawWord => 1
  | .writeReg | .sweep => 2

/-- An assembler line the assembler takes (R114): the operands the mnemonic has, each one small
enough for its field. -/
def AsmLine.wellFormed (l : AsmLine) : Bool :=
  l.operands.length == l.mnemonic.arity && l.operands.all fun n => decide (n ≤ l.mnemonic.operandMax)

end Sys2Proof
end

