-- ==== Sys2Proof/Decode.lean ====
section
/-! DEFINITION. Decoding and encoding (30_encoding.md): the command word (R100 to R104, R108), the
bus frame (R110 to R113), the opcode table's numbering of bits, and the encoder from the same
tables. -/

namespace Sys2Proof

/-- Why a word or a pair of bytes is no instruction. -/
inductive DecodeError where
  /-- ILLEGAL: OP is in 0xC..0xF (R108). -/
  | reservedOp
  /-- ILLEGAL: RSV is not 0, whatever the OP (R108). -/
  | reservedBits
  /-- The command bits of `tx0` are neither 000 nor 001: the block sends no such frame (R113). -/
  | notAFrame
deriving DecidableEq, Repr

/-- OP, bits [31:28] (R100). -/
def opField (w : Word) : BitVec 4 := w.extractLsb' 28 4

/-- RSV, bits [27:24] (R100). -/
def rsvField (w : Word) : BitVec 4 := w.extractLsb' 24 4

/-- FA, bits [23:16] (R100). -/
def faField (w : Word) : Byte := w.extractLsb' 16 8

/-- FB, bits [15:8] (R100). -/
def fbField (w : Word) : Byte := w.extractLsb' 8 8

/-- FC, bits [7:0] (R100). -/
def fcField (w : Word) : Byte := w.extractLsb' 0 8

/-- The command an OP value selects, with its operands (R104). -/
def commandOf (op : BitVec 4) (fa fb fc : Byte) : Except DecodeError Instr :=
  match op.toNat with
  | 0x0 => .ok .nop
  | 0x1 => .ok .attach
  | 0x2 => .ok .configure
  | 0x3 => .ok .powerUp
  | 0x4 => .ok (.readReg fa)
  | 0x5 => .ok (.writeReg fa fc)
  | 0x6 => .ok (.busyTest fa)
  | 0x7 => .ok (.sweep fa fb)
  | 0x8 => .ok .clearTable
  | 0x9 => .ok .cycle
  | 0xA => .ok (.readHit fa)
  | 0xB => .ok .readStatus
  | _ => .error .reservedOp

/-- Decoding a command word (R103): total, and independent of the state (R109). -/
def decodeCommand (w : Word) : Except DecodeError Instr :=
  if rsvField w = 0 then commandOf (opField w) (faField w) (fbField w) (fcField w)
  else .error .reservedBits

/-- CMD, bits [7:5] of a frame's first byte (R75, R110). -/
def frameCmd (tx0 : Byte) : BitVec 3 := tx0.extractLsb' 5 3

/-- ADDR, bits [4:0] of a frame's first byte (R75, R110). -/
def frameAddr (tx0 : Byte) : RegAddr := tx0.extractLsb' 0 5

/-- Reading the two bytes of a frame (R110 to R112). DESIGN CHOICE (log 13): the second byte of a
read frame, the filler, decides nothing. -/
def decodeFrame (tx0 tx1 : Byte) : Except DecodeError Instr :=
  if frameCmd tx0 = 0b000#3 then .ok (.rFrame (frameAddr tx0))
  else if frameCmd tx0 = 0b001#3 then .ok (.wFrame (frameAddr tx0) tx1)
  else .error .notAFrame

/-- Decoding, of either form. -/
def decode : Encoded → Except DecodeError Instr
  | .command w => decodeCommand w
  | .frame tx0 tx1 => decodeFrame tx0 tx1

/-- The form an instruction of `nbits` bits has when its bits are `w`, numbered as the opcode table
numbers them: a command is one 32-bit word; a frame's first byte holds bits [7:0], its second byte
bits [15:8]. Every bit above `nbits` is 0. -/
def tableForm (nbits w : Nat) : Encoded :=
  let bits := w % 2 ^ nbits
  if nbits ≤ 16 then .frame (BitVec.ofNat 8 bits) (BitVec.ofNat 8 (bits / 256))
  else .command (BitVec.ofNat 32 bits)

/-- The instruction the decoder reads from an opcode-table word; none where it refuses. -/
def decodeTableWord (nbits w : Nat) : Option Instr :=
  match decode (tableForm nbits w) with
  | .ok i => some i
  | .error _ => none

/-- A command word from its fields, RSV 0 (R100). -/
def commandWord (op : BitVec 4) (fa fb fc : Byte) : Word := op ++ 0#4 ++ fa ++ fb ++ fc

/-- The first byte of a frame: command bits, then address (R75, R110). -/
def frameByte (cmd : BitVec 3) (a : RegAddr) : Byte := cmd ++ a

/-- The first byte of a read frame, `000 ‖ a` (R111). -/
def readByte (a : RegAddr) : Byte := frameByte 0b000#3 a

/-- The first byte of a write frame, `001 ‖ a` (R112). -/
def writeByte (a : RegAddr) : Byte := frameByte 0b001#3 a

/-- The encoder (R104, R111, R112): RSV and every unused field are 0 (R114); a read frame's second
byte is the configured filler. -/
def encode (filler : Byte) : Instr → Encoded
  | .nop => .command (commandWord 0x0 0 0 0)
  | .attach => .command (commandWord 0x1 0 0 0)
  | .configure => .command (commandWord 0x2 0 0 0)
  | .powerUp => .command (commandWord 0x3 0 0 0)
  | .readReg a8 => .command (commandWord 0x4 a8 0 0)
  | .writeReg a8 v => .command (commandWord 0x5 a8 0 v)
  | .busyTest c => .command (commandWord 0x6 c 0 0)
  | .sweep start count => .command (commandWord 0x7 start count 0)
  | .clearTable => .command (commandWord 0x8 0 0 0)
  | .cycle => .command (commandWord 0x9 0 0 0)
  | .readHit c => .command (commandWord 0xA c 0 0)
  | .readStatus => .command (commandWord 0xB 0 0 0)
  | .rFrame a => .frame (readByte a) filler
  | .wFrame a v => .frame (writeByte a) v

/-- The match and mask columns of spec/opcode_table.json for an instruction's row. -/
def tableRow : Instr → Nat × Nat
  | .nop => (0x00000000, 0xFF000000)
  | .attach => (0x10000000, 0xFF000000)
  | .configure => (0x20000000, 0xFF000000)
  | .powerUp => (0x30000000, 0xFF000000)
  | .readReg _ => (0x40000000, 0xFF000000)
  | .writeReg _ _ => (0x50000000, 0xFF000000)
  | .busyTest _ => (0x60000000, 0xFF000000)
  | .sweep _ _ => (0x70000000, 0xFF000000)
  | .clearTable => (0x80000000, 0xFF000000)
  | .cycle => (0x90000000, 0xFF000000)
  | .readHit _ => (0xA0000000, 0xFF000000)
  | .readStatus => (0xB0000000, 0xFF000000)
  | .rFrame _ => (0x00, 0xE0)
  | .wFrame _ _ => (0x20, 0xE0)

/-- Whether an encoded form matches a row of the table: a command on its word, a frame on its first
byte. -/
def Encoded.matchesRow (row : Nat × Nat) : Encoded → Bool
  | .command w => w &&& BitVec.ofNat 32 row.2 == BitVec.ofNat 32 row.1
  | .frame tx0 _ => tx0 &&& BitVec.ofNat 8 row.2 == BitVec.ofNat 8 row.1

end Sys2Proof
end

