-- ==== Sys2Proof/Machine/State.lean ====
section
/-! DEFINITION. The machine's state: the architectural state S of one instance (10_state.md R42), its
configuration (R40), and the model's own fields for the ports, the environment's answers and the
trace; the reasons a step can stop; the state right after reset (R57, R240). -/

namespace Sys2Proof.Machine

/-- Why the machine stops with a fault. NO CONSTRUCTOR: the block has no trap (60_exceptions.md
R210, R214) and never stops by itself (70_reset_and_hazards.md R254); every error is a status code.
Nothing raises a fault, which is safe and unsafe of nothing. -/
inductive Fault : Type
deriving DecidableEq, Repr

/-- Why a step is refused. -/
inductive Refusal where
  /-- Raised by an arm of `exec` whose instruction has no meaning in the model (none is left). Safe:
  the model stops where the hardware goes on. -/
  | notModelled (mnemonic : String)
  /-- Raised by `step`, and by the step of a system, for an instance whose configuration breaks
  10_state.md R41: "such an instance has no step" (log 11). Safe: no run of such an instance exists. -/
  | illFormedConfig
deriving DecidableEq, Repr

/-- The bring-up states of `S.fsm` (R43): no other states. -/
inductive Fsm where
  | unattached
  | attached
  | configured
  | listening
deriving DecidableEq, Repr

/-- `S.ce`, the level the block drives on the enable line (R47). -/
inductive EnableLevel where
  | undriven
  | low
  | high
deriving DecidableEq, Repr

/-- The mode a GPIO line is put in (R13): the block uses output only. -/
inductive LineMode where
  | output
deriving DecidableEq, Repr

/-- The level a GPIO line is driven to (R13). -/
inductive LineLevel where
  | low
  | high
deriving DecidableEq, Repr

/-- The external events (00_scope.md R13). -/
inductive Event where
  | gpioMode (line : Line) (mode : LineMode)
  | gpioLevel (line : Line) (level : LineLevel)
  | attachReq (bus : BusId) (cs : Line) (clkHz : Nat) (mode : SpiMode)
  | xfer (ref : DevRef) (tx0 tx1 : Byte)
  | delay (us : Nat)
deriving DecidableEq, Repr

/-- The status codes (30_encoding.md R106). -/
inductive Code where
  | ok
  | errIllegal
  | errState
  | errRange
  | attachFail
  | xferFail
deriving DecidableEq, Repr

/-- What the host, or the platform, does at the port beside presenting commands (60_exceptions.md
R227, 70_reset_and_hazards.md R240; log 4). -/
inductive HostMove where
  /-- Nothing. -/
  | idle
  /-- The host takes the response word it was given. -/
  | takeResponse
  /-- The reset is applied. -/
  | reset
deriving DecidableEq, Repr

/-- What the framer handed back for a frame placed at it (log 5). -/
inductive FrameOut where
  /-- Nothing yet, or a write, which has no result (40_register_link.md R131). -/
  | nothing
  /-- A read's `Value(v)` (R130). -/
  | value (v : Byte)
  /-- A read's `Failed` (R130). -/
  | failed
  /-- There was no device reference to send it to, so no frame was sent. -/
  | noDevice
deriving DecidableEq, Repr

/-- The result of the register-read primitive (40_register_link.md R130). -/
inductive ReadResult where
  | value (v : Byte)
  | failed
deriving DecidableEq, Repr

/-- The result of the channel-busy primitive (42_band_scanner.md R180). -/
structure BusyResult where
  busy   : Bool
  failed : Bool
deriving DecidableEq, Repr

/-- The state of one instance. Plain data. -/
structure State where
  /-- `CFG` (R40): never written. -/
  cfg         : Cfg
  /-- `S.fsm` (R43). -/
  fsm         : Fsm
  /-- `S.devref` (R45). -/
  devref      : Option DevRef
  /-- `S.attach_fail` (R46). -/
  attachFail  : Bool
  /-- `S.rd_fail` (R46). -/
  rdFail      : Bool
  /-- `S.wr_fail` (R46). -/
  wrFail      : Bool
  /-- `S.ce` (R47). -/
  ce          : EnableLevel
  /-- `S.hit`, the hit table (R48): the counter of channel `c` at index `c` (R72). -/
  hit         : Vector Half 126
  /-- `S.resp` (R52). -/
  resp        : Word
  /-- `S.busy` (R53): between steps it is set only while a call is never answered (log 3). -/
  busy        : Bool
  /-- Command port: words presented and not yet accepted, oldest first (R227, R53; log 4). -/
  cmdIn       : List Word
  /-- Command port: the host's other moves, one for each step (log 4). -/
  hostIn      : List HostMove
  /-- Command port: a response is presented and not yet taken (R227; log 4). -/
  respWaiting : Bool
  /-- The framer's own port: the two bytes of a frame placed at it (log 5). -/
  frameIn     : Option (Byte × Byte)
  /-- The framer's own port: what it handed back (log 5). -/
  frameOut    : FrameOut
  /-- Environment: the next answers to `AttachReq` (R14; log 2). -/
  attachIn    : List AttachAnswer
  /-- Environment: the next answers to `Xfer` (R14; log 2). -/
  xferIn      : List XferAnswer
  /-- Environment: the number of the next free draw (log 2). -/
  draws       : Nat
  /-- Environment: none, every call is answered (R253's fairness); `some n`, the blocking call after
  `n` more is never answered (log 3). -/
  hangAfter   : Option Nat
  /-- Trace: the external events issued, oldest first (R254; log 7). -/
  events      : List Event
  /-- Trace: the response words given, oldest first (R254; log 7). -/
  responses   : List Word
deriving DecidableEq, Repr

/-- An instance right after its power-on reset (R57, R240), built with a configuration. The ports,
the environment's lists and the trace are empty (DESIGN CHOICE, logs 2 to 5 and 7). -/
def State.init (cfg : Cfg) : State where
  cfg := cfg
  fsm := .unattached
  devref := none
  attachFail := false
  rdFail := false
  wrFail := false
  ce := .undriven
  hit := Vector.replicate 126 0
  resp := 0x00000000
  busy := false
  cmdIn := []
  hostIn := []
  respWaiting := false
  frameIn := none
  frameOut := .nothing
  attachIn := []
  xferIn := []
  draws := 0
  hangAfter := none
  events := []
  responses := []

/-- The machine right after reset, with the configuration of log 1. -/
def State.reset : State := State.init Cfg.default

/-- How a sequence of external calls ends: it is done, or a call in it is never answered and the
instance stays in it (70_reset_and_hazards.md R253). -/
inductive Ran (α : Type) where
  | done (a : α) (s : State)
  | hung (s : State)

end Sys2Proof.Machine
end

