-- ==== Sys2Proof/Machine/Ops.lean ====
section
/-! DEFINITION. The named operations: reading and writing each piece of state, issuing an event,
the external calls and their answers, ending a command with its response (the block's one way to
report an error: it has no trap, R214), the port's moves, and reset. -/

namespace Sys2Proof.Machine

/-! ### Writing the fields of S -/

/-- `S.fsm <- f`. -/
def State.setFsm (s : State) (f : Fsm) : State := { s with fsm := f }

/-- `S.devref <- Some(ref)` (R45). -/
def State.setDevref (s : State) (ref : DevRef) : State := { s with devref := some ref }

/-- `S.ce <- l` (R47). -/
def State.setCe (s : State) (l : EnableLevel) : State := { s with ce := l }

/-- What the framer hands back for a frame placed at it (log 5). -/
def State.setFrameOut (s : State) (o : FrameOut) : State := { s with frameOut := o }

/-! ### The hit table (20_memory.md R72, R73) -/

/-- `HIT[c]`. -/
def State.readHit (s : State) (c : Channel) : Half := s.hit[c]

/-- `HIT[c] <- v`. -/
def State.writeHit (s : State) (c : Channel) (v : Half) : State := { s with hit := s.hit.set c v }

/-- `for c in 0..125: HIT[c] <- 0` (R187, R188). -/
def State.clearHits (s : State) : State := { s with hit := Vector.replicate 126 0 }

/-- `sat_inc` (42_band_scanner.md R185). -/
def satInc (h : Half) : Half := if h = 0xFFFF then 0xFFFF else h + 1

/-- `HIT[c] <- sat_inc(HIT[c])`, one indivisible read-modify-write (R185, R88). -/
def State.countHit (s : State) (c : Channel) : State := s.writeHit c (satInc (s.readHit c))

/-! ### Events and answers -/

/-- Issue an event: it joins the trace (R13, R84). -/
def State.emit (s : State) (e : Event) : State := { s with events := s.events ++ [e] }

/-- The answer the next `AttachReq` gets: a draw (R14), from the input list, then from the instance's
own stream of free values. DESIGN CHOICE (log 2): the stream is named by the chip-select line, which
no other instance of the system has, so nothing relates the draws of two instances; it is drawn before
the call, so two runs with one line, one counter and equal lists get the same answer. -/
def State.attachAnswer (s : State) : AttachAnswer :=
  match s.attachIn with
  | a :: _ => a
  | [] => Config.freeAttach s.cfg.csLine s.draws

/-- The answer the next `Xfer` gets: a draw (R14, R81), from the input list, then from the instance's
own stream of free values. DESIGN CHOICE (log 2): the stream is named by the chip-select line, and the
answer is drawn before the call, as in `State.attachAnswer`. -/
def State.xferAnswer (s : State) : XferAnswer :=
  match s.xferIn with
  | a :: _ => a
  | [] => Config.freeXfer s.cfg.csLine s.draws

/-- The answer to an `AttachReq` is used up. -/
def State.popAttach (s : State) : State :=
  { s with
    attachIn := s.attachIn.tail
    draws := if s.attachIn.isEmpty then s.draws + 1 else s.draws }

/-- The answer to an `Xfer` is used up. -/
def State.popXfer (s : State) : State :=
  { s with
    xferIn := s.xferIn.tail
    draws := if s.xferIn.isEmpty then s.draws + 1 else s.draws }

/-- A blocking call was answered, or its wait has elapsed: one fewer before the one that never is. -/
def State.answered (s : State) : State := { s with hangAfter := s.hangAfter.map (· - 1) }

/-- The call the instance stands in is never answered: it stays in the command, busy, and does not
time out (R253; log 3). -/
def State.stuck (s : State) : State := { s with busy := true, hangAfter := none }

/-! ### Sequences of external calls -/

/-- Go on after a call, if it was answered (R84: each event completes before the next is issued). -/
def Ran.bind {α β : Type} (r : Ran α) (f : α → State → Ran β) : Ran β :=
  match r with
  | .done a s => f a s
  | .hung s => .hung s

/-- The state a sequence ends in, or stays in. -/
def Ran.state {α : Type} : Ran α → State
  | .done _ s => s
  | .hung s => s

/-- Wait for the environment to answer a call already issued (R253). -/
def awaitAnswer (s : State) : Ran Unit :=
  if s.hangAfter = some 0 then .hung s.stuck else .done () s.answered

/-- `r <- emit AttachReq(CFG.BUS_ID, CFG.CS_LINE, CFG.SPI_CLK_HZ, CFG.SPI_MODE)` (R13, R152). -/
def callAttach (s : State) : Ran AttachAnswer :=
  (awaitAnswer (s.emit (.attachReq s.cfg.busId s.cfg.csLine s.cfg.spiClkHz s.cfg.spiMode))).bind
    fun _ s => .done s.attachAnswer s.popAttach

/-- `r <- emit Xfer(ref, tx0, tx1)` (R13). -/
def callXfer (ref : DevRef) (tx0 tx1 : Byte) (s : State) : Ran XferAnswer :=
  (awaitAnswer (s.emit (.xfer ref tx0 tx1))).bind fun _ s => .done s.xferAnswer s.popXfer

/-- `emit Delay(n)`: a blocking wait (R13, R226). -/
def callDelay (us : Nat) (s : State) : Ran Unit := awaitAnswer (s.emit (.delay us))

/-- `emit GpioMode(CFG.EN_LINE, OUTPUT)` (R13, R225): it cannot fail (R14). -/
def driveOutput (s : State) : State := s.emit (.gpioMode s.cfg.enLine .output)

/-- `emit GpioLevel(CFG.EN_LINE, LOW)` and `S.ce <- LOW` (R47, R152). -/
def driveLow (s : State) : State := (s.emit (.gpioLevel s.cfg.enLine .low)).setCe .low

/-- `emit GpioLevel(CFG.EN_LINE, HIGH)` and `S.ce <- HIGH` (R47, R155). -/
def driveHigh (s : State) : State := (s.emit (.gpioLevel s.cfg.enLine .high)).setCe .high

/-! ### Ending a command -/

/-- The number of a status code (R106). -/
def Code.toByte : Code → Byte
  | .ok => 0x00
  | .errIllegal => 0x01
  | .errState => 0x02
  | .errRange => 0x03
  | .attachFail => 0x04
  | .xferFail => 0x05

/-- The response word `code ‖ 0x00 ‖ data` (30_encoding.md R105). -/
def responseWord (code : Code) (data : Half) : Word := code.toByte ++ 0#8 ++ data

/-- `respond(code, data)` (R105): the command ends, its response word stands in `S.resp` and at the
response port, and the block is no longer busy (R53). -/
def State.respond (s : State) (code : Code) (data : Half) : State :=
  { s with
    resp := responseWord code data
    busy := false
    respWaiting := true
    responses := s.responses ++ [responseWord code data] }

/-- `respond` at the end of a sequence of calls. -/
def finish (code : Code) (data : Half) (s : State) : Ran Unit := .done () (s.respond code data)

/-- A command that needs the device (41_device_fsm.md R150, 40_register_link.md R130): where the
bring-up state allows it and there is a device reference it runs; otherwise it ends with
`respond(ERR_STATE, 0)`. DEDUCED (log 6): a missing reference in an allowed state, which no run
reaches (R45), is refused the same way. -/
def withDevice (allowed : Fsm → Bool) (body : DevRef → State → Ran Unit) (s : State) : State :=
  match s.devref with
  | some ref => if allowed s.fsm then (body ref s).state else s.respond .errState 0
  | none => s.respond .errState 0

/-- An ILLEGAL word (60_exceptions.md R212): only the response. -/
def illegalCommand (s : State) : State := s.respond .errIllegal 0

/-! ### The port's moves -/

/-- The host's move of this step is used up, and a response it takes is taken (R227; log 4). -/
def State.hostMoved (s : State) : State :=
  { s with
    hostIn := s.hostIn.tail
    respWaiting := s.respWaiting && s.hostIn.head? != some .takeResponse }

/-- The oldest presented command is accepted (R227). -/
def State.accept (s : State) : State := { s with cmdIn := s.cmdIn.tail }

/-- The frame placed at the framer is taken from its place (log 5). -/
def State.takeFrame (s : State) : State := { s with frameIn := none }

/-- The reset (70_reset_and_hazards.md R240): every field of S at its value of R57, any command in
progress ended without a response, no event. DESIGN CHOICE (log 9): the response port and the
framer's port are emptied, the commands the host still presents, the environment and the trace
stay. -/
def State.applyReset (s : State) : State :=
  { s with
    fsm := .unattached
    devref := none
    attachFail := false
    rdFail := false
    wrFail := false
    ce := .undriven
    hit := Vector.replicate 126 0
    resp := 0x00000000
    busy := false
    respWaiting := false
    frameIn := none
    frameOut := .nothing }

/-- A command word stored where `step` takes its next instruction from: presented before all others
at a port that is ready, with no reset in between. -/
def State.placeCommand (s : State) (w : Word) : State :=
  { s with
    cmdIn := w :: s.cmdIn
    hostIn := s.hostIn.dropWhile (· == .reset)
    respWaiting := false
    busy := false
    frameIn := none }

/-- A frame stored where `step` takes its next instruction from: placed at the framer. -/
def State.placeFrame (s : State) (tx0 tx1 : Byte) : State :=
  { s with
    frameIn := some (tx0, tx1)
    hostIn := s.hostIn.dropWhile (· == .reset)
    busy := false }

end Sys2Proof.Machine
end

