-- ==== Sys2Proof/Machine/Flags.lean ====
section
/-! DEFINITION. The sticky failure flags (10_state.md R46) and the STATUS word (R49, R157). -/

namespace Sys2Proof.Machine

/-- `S.attach_fail <- 1` (R46, R152). -/
def State.flagAttachFail (s : State) : State := { s with attachFail := true }

/-- `S.rd_fail <- 1` (R46, R130). -/
def State.flagRdFail (s : State) : State := { s with rdFail := true }

/-- `S.wr_fail <- 1` (R46, R131). -/
def State.flagWrFail (s : State) : State := { s with wrFail := true }

/-- The 2-bit code of a bring-up state (R43). -/
def Fsm.code : Fsm → BitVec 2
  | .unattached => 0b00
  | .attached => 0b01
  | .configured => 0b10
  | .listening => 0b11

/-- `ce_code` (R49, R157). -/
def EnableLevel.code : EnableLevel → BitVec 2
  | .undriven => 0b00
  | .low => 0b01
  | .high => 0b10

/-- STATUS: `zext_16(ce_code(S.ce) ‖ S.wr_fail ‖ S.rd_fail ‖ S.attach_fail ‖ S.fsm)` (R49, R157). -/
def statusWord (s : State) : Half :=
  0#9 ++ s.ce.code ++ BitVec.ofBool s.wrFail ++ BitVec.ofBool s.rdFail
    ++ BitVec.ofBool s.attachFail ++ s.fsm.code

/-- READ_REG, WRITE_REG and CONFIGURE run once the device is attached (R150). -/
def Fsm.allowsBus : Fsm → Bool
  | .unattached => false
  | .attached | .configured | .listening => true

/-- POWER_UP runs once the device is configured (R150). -/
def Fsm.allowsPowerUp : Fsm → Bool
  | .unattached | .attached => false
  | .configured | .listening => true

/-- BUSY_TEST, SWEEP and CYCLE run while the device is listening (R150). -/
def Fsm.allowsScan : Fsm → Bool
  | .unattached | .attached | .configured => false
  | .listening => true

end Sys2Proof.Machine
end

