-- ==== Sys2Proof/Machine/Operands.lean ====
section
/-! DEFINITION. The operand forms (30_encoding.md R101): an address operand, a channel operand, a
window; and the channel byte a busy test writes. -/

namespace Sys2Proof.Machine

/-- An address operand: only bits [4:0] reach the frame, for reads and writes, and no address is
rejected (40_register_link.md R132). -/
def addrOperand (a8 : Byte) : RegAddr := a8.extractLsb' 0 5

/-- A channel operand: 0..125 is a channel; 126 and above is none (42_band_scanner.md R181, R196). -/
def channelOperand (c : Byte) : Option Channel :=
  if h : c.toNat < 126 then some ⟨c.toNat, h⟩ else none

/-- The byte a busy test writes to RF_CH: `zext_8(c)` (R180). -/
def channelByte (c : Channel) : Byte := BitVec.ofNat 8 c.val

/-- The end of a window: `min(start + count, NUM_CHANNELS)`, without wrap-around (R182). -/
def windowEnd (start count : Nat) : Nat := min (start + count) Config.numChannels

/-- The number of channels a window selects (R182). -/
def windowSize (start count : Nat) : Nat :=
  if start < windowEnd start count then windowEnd start count - start else 0

/-- The channels of a window, `start <= c < end`, ascending, each once (R182, R183). -/
def windowChannels (start count : Nat) : List Channel :=
  (List.finRange 126).filter fun c => decide (start ≤ c.val) && decide (c.val < windowEnd start count)

end Sys2Proof.Machine
end

