-- ==== Sys2Proof/Machine/Framer.lean ====
section
/-! DEFINITION. The register-access framer (40_register_link.md): its two primitives, the commands
READ_REG and WRITE_REG, and the bus frames R_FRAME and W_FRAME (30_encoding.md R110 to R113). -/

namespace Sys2Proof.Machine

/-- What the framer makes of a read frame's answer (R130): `rx1` is the value; a failure sets the
flag. -/
def readOutcome : XferAnswer → State → Ran ReadResult
  | .ok _ rx1, s => .done (.value rx1) s
  | .err, s => .done .failed s.flagRdFail

/-- `RegRead` at a masked address (R130, R132): exactly one read frame (R133). -/
def regRead (ref : DevRef) (a : RegAddr) (s : State) : Ran ReadResult :=
  (callXfer ref (readByte a) s.cfg.filler s).bind readOutcome

/-- What the framer makes of a write frame's answer (R131): nothing but the flag of a failure. -/
def writeOutcome : XferAnswer → State → Ran Unit
  | .ok _ _, s => .done () s
  | .err, s => .done () s.flagWrFail

/-- `RegWrite` at a masked address (R131, R132): exactly one write frame (R133). -/
def regWrite (ref : DevRef) (a : RegAddr) (v : Byte) (s : State) : Ran Unit :=
  (callXfer ref (writeByte a) v s).bind writeOutcome

/-- READ_REG's response (R135). -/
def answerRead : ReadResult → State → Ran Unit
  | .value v, s => finish .ok (v.zeroExtend 16) s
  | .failed, s => finish .xferFail 0 s

/-- READ_REG a8 (R135). -/
def execReadReg (a8 : Byte) (s : State) : Host.Outcome State Fault Refusal :=
  .next (withDevice Fsm.allowsBus
    (fun ref s => (regRead ref (addrOperand a8) s).bind answerRead) s)

/-- WRITE_REG a8, v (R136): OK also when the write failed. -/
def execWriteReg (a8 v : Byte) (s : State) : Host.Outcome State Fault Refusal :=
  .next (withDevice Fsm.allowsBus
    (fun ref s => (regWrite ref (addrOperand a8) v s).bind fun _ s => finish .ok 0 s) s)

/-- What the framer hands back for a read frame placed at it. -/
def FrameOut.ofRead : ReadResult → FrameOut
  | .value v => .value v
  | .failed => .failed

/-- A frame placed at the framer: sent if there is a device reference (the precondition of R130 and
R131); otherwise none is sent (log 5). -/
def frameToDevice (body : DevRef → State → Ran Unit) (s : State) : State :=
  match s.devref with
  | some ref => (body ref s).state
  | none => s.setFrameOut .noDevice

/-- R_FRAME a (30_encoding.md R111, 40_register_link.md R130). -/
def execRFrame (a : RegAddr) (s : State) : Host.Outcome State Fault Refusal :=
  .next (frameToDevice
    (fun ref s => (regRead ref a s).bind fun r s => .done () (s.setFrameOut (.ofRead r))) s)

/-- W_FRAME a, v (30_encoding.md R112, 40_register_link.md R131): a write has no result. -/
def execWFrame (a : RegAddr) (v : Byte) (s : State) : Host.Outcome State Fault Refusal :=
  .next (frameToDevice
    (fun ref s => (regWrite ref a v s).bind fun _ s => .done () (s.setFrameOut .nothing)) s)

end Sys2Proof.Machine
end

