-- ==== Sys2Proof/Machine/Controller.lean ====
section
/-! DEFINITION. The transceiver bring-up state-machine controller (41_device_fsm.md): NOP, ATTACH,
CONFIGURE, POWER_UP, READ_STATUS. -/

namespace Sys2Proof.Machine

/-- NOP (R151). -/
def execNop (s : State) : Host.Outcome State Fault Refusal := .next (s.respond .ok 0)

/-- What ATTACH makes of the transport's answer (R152, R153): no retry. -/
def attachOutcome : AttachAnswer → State → Ran Unit
  | .ok ref, s => finish .ok 0 ((s.setDevref ref).setFsm .attached)
  | .err, s => finish .attachFail 0 s.flagAttachFail

/-- ATTACH (R152): refused unless UNATTACHED; the enable line is driven low before the request. -/
def execAttach (s : State) : Host.Outcome State Fault Refusal :=
  .next (if s.fsm = .unattached
    then ((callAttach (driveLow (driveOutput s))).bind attachOutcome).state
    else s.respond .errState 0)

/-- CONFIGURE raises ATTACHED to CONFIGURED and never lowers a state (R154, C5). -/
def raiseToConfigured (s : State) : State :=
  if s.fsm = .attached then s.setFsm .configured else s

/-- CONFIGURE (R154): EN_AA first, then RF_SETUP; the writes are not checked. -/
def execConfigure (s : State) : Host.Outcome State Fault Refusal :=
  .next (withDevice Fsm.allowsBus
    (fun ref s =>
      (regWrite ref s.cfg.addrEnAa s.cfg.valEnAa s).bind fun _ s =>
      (regWrite ref s.cfg.addrRfSetup s.cfg.valRfSetup s).bind fun _ s =>
      finish .ok 0 (raiseToConfigured s)) s)

/-- POWER_UP (R155): the CONFIG write, the settle delay (also when the write failed), the enable
line high. -/
def execPowerUp (s : State) : Host.Outcome State Fault Refusal :=
  .next (withDevice Fsm.allowsPowerUp
    (fun ref s =>
      (regWrite ref s.cfg.addrConfig s.cfg.valConfig s).bind fun _ s =>
      (callDelay Config.puSettleUs s).bind fun _ s =>
      finish .ok 0 ((driveHigh s).setFsm .listening)) s)

/-- READ_STATUS (R157): it clears nothing. -/
def execReadStatus (s : State) : Host.Outcome State Fault Refusal :=
  .next (s.respond .ok (statusWord s))

end Sys2Proof.Machine
end

