-- ==== Sys2Proof/Machine/Scanner.lean ====
section
/-! DEFINITION. The band-sweep sequencer and hit accumulator (42_band_scanner.md): the busy test,
the sweep, BUSY_TEST, SWEEP, CLEAR_TABLE, CYCLE, READ_HIT. -/

namespace Sys2Proof.Machine

/-- What a busy test makes of the RPD read (R180): bit 0 counts; a failed read is idle. -/
def busyOf : ReadResult → BusyResult
  | .value v => { busy := v.getLsbD 0, failed := false }
  | .failed => { busy := false, failed := true }

/-- `BusyTest(c)` (R180): the channel write, the settle delay, the RPD read, whatever fails. -/
def busyTest (ref : DevRef) (c : Channel) (s : State) : Ran BusyResult :=
  (regWrite ref s.cfg.addrRfCh (channelByte c) s).bind fun _ s =>
  (callDelay Config.chSettleUs s).bind fun _ s =>
  (regRead ref s.cfg.addrRpd s).bind fun r s =>
  .done (busyOf r) s

/-- BUSY_TEST's response (R181). -/
def answerBusy (b : BusyResult) (s : State) : Ran Unit :=
  if b.failed then finish .xferFail 0 s else finish .ok (if b.busy then 1 else 0) s

/-- BUSY_TEST c (R181): ERR_STATE before ERR_RANGE (60_exceptions.md R218), both before any event. -/
def execBusyTest (c : Byte) (s : State) : Host.Outcome State Fault Refusal :=
  .next (withDevice Fsm.allowsScan
    (fun ref s =>
      match channelOperand c with
      | some ch => (busyTest ref ch s).bind answerBusy
      | none => finish .errRange 0 s) s)

/-- One channel of a sweep (R183, R186): a busy result counts at the channel tested. -/
def countIfBusy (c : Channel) (b : BusyResult) (s : State) : State :=
  if b.busy then s.countHit c else s

/-- A busy test on each channel of a list in its order, each once (R183, R192); how many. -/
def sweepChannels (ref : DevRef) : List Channel → State → Ran Nat
  | [], s => .done 0 s
  | c :: cs, s =>
    (busyTest ref c s).bind fun b s =>
    (sweepChannels ref cs (countIfBusy c b s)).bind fun n s => .done (n + 1) s

/-- `SweepOnce(start, count)` (R183). -/
def sweepOnce (ref : DevRef) (start count : Nat) (s : State) : Ran Nat :=
  sweepChannels ref (windowChannels start count) s

/-- `repeat K times: SweepOnce(start, count)` (R188). -/
def sweepRepeat (ref : DevRef) (start count : Nat) : Nat → State → Ran Unit
  | 0, s => .done () s
  | k + 1, s => (sweepOnce ref start count s).bind fun _ s => sweepRepeat ref start count k s

/-- SWEEP start, count (R184): the table is not cleared. -/
def execSweep (start count : Byte) (s : State) : Host.Outcome State Fault Refusal :=
  .next (withDevice Fsm.allowsScan
    (fun ref s => (sweepOnce ref start.toNat count.toNat s).bind fun n s =>
      finish .ok (BitVec.ofNat 16 n) s) s)

/-- CLEAR_TABLE (R187). -/
def execClearTable (s : State) : Host.Outcome State Fault Refusal :=
  .next (s.clearHits.respond .ok 0)

/-- CYCLE (R188): clear at the start, then the configured number of sweeps of the configured
window, clipped at each use (R195). -/
def execCycle (s : State) : Host.Outcome State Fault Refusal :=
  .next (withDevice Fsm.allowsScan
    (fun ref s =>
      (sweepRepeat ref s.cfg.winStart s.cfg.winCount s.cfg.sweepsPerCycle s.clearHits).bind fun _ s =>
      finish .ok (BitVec.ofNat 16 (windowSize s.cfg.winStart s.cfg.winCount)) s) s)

/-- READ_HIT c (R196). -/
def execReadHit (c : Byte) (s : State) : Host.Outcome State Fault Refusal :=
  .next (match channelOperand c with
    | some ch => s.respond .ok (s.readHit ch)
    | none => s.respond .errRange 0)

end Sys2Proof.Machine
end

