-- ==== Sys2Proof/Machine/Dispatch.lean ====
section
/-! DEFINITION. One arm for each instruction. -/

namespace Sys2Proof.Machine

def exec (i : Instr) (s : State) : Host.Outcome State Fault Refusal :=
  match i with
  | .nop => Sys2Proof.Machine.execNop s
  | .attach => Sys2Proof.Machine.execAttach s
  | .configure => Sys2Proof.Machine.execConfigure s
  | .powerUp => Sys2Proof.Machine.execPowerUp s
  | .readReg a8 => Sys2Proof.Machine.execReadReg a8 s
  | .writeReg a8 v => Sys2Proof.Machine.execWriteReg a8 v s
  | .busyTest c => Sys2Proof.Machine.execBusyTest c s
  | .sweep start count => Sys2Proof.Machine.execSweep start count s
  | .clearTable => Sys2Proof.Machine.execClearTable s
  | .cycle => Sys2Proof.Machine.execCycle s
  | .readHit c => Sys2Proof.Machine.execReadHit c s
  | .readStatus => Sys2Proof.Machine.execReadStatus s
  | .rFrame a => Sys2Proof.Machine.execRFrame a s
  | .wFrame a v => Sys2Proof.Machine.execWFrame a v s

end Sys2Proof.Machine
end

