-- ==== Sys2Proof/Machine/Step.lean ====
section
/-! DEFINITION. One step of an instance: the host's move, then a frame placed at the framer, then the
next command of the port, run to completion (00_scope.md R9). -/

namespace Sys2Proof.Machine

/-- Run the frame placed at the framer. A pair of bytes that is no frame is dropped: the block
transmits no other frame (30_encoding.md R113; log 13). -/
def runFrame (tx0 tx1 : Byte) (s : State) : Host.Outcome State Fault Refusal :=
  match decodeFrame tx0 tx1 with
  | .ok i => exec i s
  | .error _ => .next s

/-- Run an accepted command word; an ILLEGAL one is answered ERR_ILLEGAL (R103, R212). -/
def runCommand (w : Word) (s : State) : Host.Outcome State Fault Refusal :=
  match decodeCommand w with
  | .ok i => exec i s
  | .error _ => .next (illegalCommand s)

/-- What the instance does once the host has moved. Busy, it accepts nothing and does not time out
(10_state.md R53, 70_reset_and_hazards.md R253). A presented command waits, and is not dropped,
until the last response is taken (60_exceptions.md R227). With nothing to do it waits. -/
def runPort (s : State) : Host.Outcome State Fault Refusal :=
  if s.busy then .next s
  else
    match s.frameIn with
    | some (tx0, tx1) => runFrame tx0 tx1 s.takeFrame
    | none =>
      if s.respWaiting then .next s
      else
        match s.cmdIn with
        | [] => .next s
        | w :: _ => runCommand w s.accept

/-- One step. An instance with an ill-formed configuration has none (10_state.md R41). A reset comes
before everything else (70_reset_and_hazards.md R240). -/
def step (s : State) : Host.Outcome State Fault Refusal :=
  if s.cfg.wellFormed then
    if s.hostIn.head? = some .reset then .next s.hostMoved.applyReset else runPort s.hostMoved
  else .refused .illFormedConfig

/-- `s` with an opcode-table word stored where `step` takes its next instruction from: a command at
the command port, a frame at the framer (log 8). -/
def State.withFetchWord (s : State) (nbits w : Nat) : State :=
  match tableForm nbits w with
  | .command w => s.placeCommand w
  | .frame tx0 tx1 => s.placeFrame tx0 tx1

end Sys2Proof.Machine
end

