-- ==== Sys2Proof/Machine/Assembler.lean ====
section
/-! DEFINITION. The host side of 30_encoding.md §6: assembling a line (R114), expanding a
pseudo-command (R115), and the host's runs of commands. The block has no part in it. -/

namespace Sys2Proof.Machine

/-- The command an assembler line of the right number of operands stands for (R104's operands
column). -/
def lineInstr : AsmLine → Option Instr
  | ⟨.nop, []⟩ => some .nop
  | ⟨.attach, []⟩ => some .attach
  | ⟨.configure, []⟩ => some .configure
  | ⟨.powerUp, []⟩ => some .powerUp
  | ⟨.readReg, [a]⟩ => some (.readReg (BitVec.ofNat 8 a))
  | ⟨.writeReg, [a, v]⟩ => some (.writeReg (BitVec.ofNat 8 a) (BitVec.ofNat 8 v))
  | ⟨.busyTest, [c]⟩ => some (.busyTest (BitVec.ofNat 8 c))
  | ⟨.sweep, [b, n]⟩ => some (.sweep (BitVec.ofNat 8 b) (BitVec.ofNat 8 n))
  | ⟨.clearTable, []⟩ => some .clearTable
  | ⟨.cycle, []⟩ => some .cycle
  | ⟨.readHit, [c]⟩ => some (.readHit (BitVec.ofNat 8 c))
  | ⟨.readStatus, []⟩ => some .readStatus
  | _ => none

end Sys2Proof.Machine

namespace Sys2Proof

/-- The command word of an encoded command. A frame is none: the host writes commands only. -/
def Encoded.commandWord? : Encoded → Option Word
  | .command w => some w
  | .frame _ _ => none

end Sys2Proof

namespace Sys2Proof.Machine

/-- The assembler (R114): it refuses an operand above 255; RSV and every unused field are 0; `.word`
writes a raw word. -/
def assemble (l : AsmLine) : Option Word :=
  if l.wellFormed then
    match l with
    | ⟨.rawWord, [n]⟩ => some (BitVec.ofNat 32 n)
    | _ => (lineInstr l).bind fun i => (encode 0 i).commandWord?
  else none

/-- The READ_HITs of `REPORT`: `READ_HIT s; ...; READ_HIT e-1` (R115). -/
def reportReads (cfg : Cfg) : List Instr :=
  (windowChannels cfg.winStart cfg.winCount).map fun c => .readHit (channelByte c)

end Sys2Proof.Machine

namespace Sys2Proof

/-- The expansion of a pseudo-command (R115). -/
def Pseudo.expand (cfg : Cfg) : Pseudo → List Instr
  | .bringup => [.attach, .configure, .powerUp]
  | .sweepWin => [.sweep (BitVec.ofNat 8 cfg.winStart) (BitVec.ofNat 8 cfg.winCount)]
  | .report => .cycle :: Machine.reportReads cfg

end Sys2Proof

namespace Sys2Proof.Machine

/-- The status code of the last response, `CODE` (R105). -/
def State.respCode (s : State) : Byte := s.resp.extractLsb' 24 8

/-- The host runs commands in order and stops at the first response whose CODE is not OK (R115's
`BRINGUP`), or at a command that is never answered. -/
def hostRun : List Instr → State → State
  | [], s => s
  | i :: is, s =>
    match exec i s with
    | .next t => if t.busy || t.respCode != 0 then t else hostRun is t
    | .fault _ => s
    | .refused _ => s

end Sys2Proof.Machine
end

