-- ==== Sys2Proof/Machine/System.lean ====
section
/-! DEFINITION. Several instances in one system (20_memory.md R85; 42_band_scanner.md R193;
60_exceptions.md R222, R223): a list of instances, each with its own configuration, ports and
environment, and a list of turns that says which one steps next. Nothing is shared. Frames of
instances on one bus interleave in any order; the model records each instance's own order only
(log 12). -/

namespace Sys2Proof.Machine

/-- A system of instances, told apart by their place (R223). -/
structure System where
  instances : List State
  /-- Whose turn it is, next first; any list is allowed (R85). -/
  turns     : List Nat
deriving DecidableEq, Repr

/-- Every configuration is well formed, and no line is used twice (10_state.md R41). -/
def System.wellFormed (y : System) : Bool :=
  (y.instances.all fun s => s.cfg.wellFormed) && linesDistinct (y.instances.map (·.cfg))

/-- The system after the instance at a place took its step. -/
def System.update (y : System) (k : Nat) (s : State) : System :=
  { instances := y.instances.set k s, turns := y.turns.tail }

/-- One step of the system: the instance whose turn it is steps. A turn of no instance passes. -/
def System.step (y : System) : Host.Outcome System Fault Refusal :=
  if y.wellFormed then
    match y.turns with
    | [] => .next y
    | k :: _ =>
      match y.instances[k]? with
      | none => .next { y with turns := y.turns.tail }
      | some s =>
        match Sys2Proof.Machine.step s with
        | .next t => .next (y.update k t)
        | .fault f => .fault f
        | .refused r => .refused r
  else .refused .illFormedConfig

end Sys2Proof.Machine
end

