-- ==== Sys2Proof/Safety.lean ====
section
/-! DEFINITION. What claims are stated in: fairness, the answers still to come, the events of a busy
test, which events the block may issue, the bring-up invariant, frames, and the ideal register file
of 40_register_link.md R137. -/

namespace Sys2Proof

/-- Whether a frame's answer is `Err`. -/
def XferAnswer.isErr : XferAnswer → Bool
  | .ok _ _ => false
  | .err => true

/-- Whether an RPD read's answer counts as busy: bit 0 of the value; a failed read does not
(42_band_scanner.md R180). -/
def XferAnswer.isBusy : XferAnswer → Bool
  | .ok _ rx1 => rx1.getLsbD 0
  | .err => false

end Sys2Proof

namespace Sys2Proof.Machine

/-- Every call of the instance is answered (the fairness of 70_reset_and_hazards.md R253). -/
abbrev State.Fair (s : State) : Prop := s.hangAfter = none

/-- The answer the `Xfer` after `n` more will get. -/
def State.nthXfer (s : State) (n : Nat) : XferAnswer :=
  match s.xferIn[n]? with
  | some a => a
  | none => Config.freeXfer s.cfg.csLine (s.draws + (n - s.xferIn.length))

/-- The events of one busy test (R180). -/
def busyTestEvents (cfg : Cfg) (ref : DevRef) (c : Channel) : List Event :=
  [.xfer ref (0b001#3 ++ cfg.addrRfCh) (BitVec.ofNat 8 c.val), .delay 150,
    .xfer ref (0b000#3 ++ cfg.addrRpd) cfg.filler]

/-- The instructions that are commands of the command port (R104), not frames. -/
def isCommand : Instr → Bool
  | .rFrame _ | .wFrame _ _ => false
  | _ => true

/-- Every word with these bits [31:24], OP and then RSV, is this command, with the operands it takes
from the word; the bits the command does not use are ignored (30_encoding.md R101 to R104). -/
def WordsDecodeTo (top : Byte) (i : Word → Instr) : Prop :=
  ∀ w : Word, w.extractLsb' 24 8 = top → decodeCommand w = .ok (i w)

/-- The line assembles to this word, and the word is this command (30_encoding.md R104, R114). -/
structure AssemblesTo (l : AsmLine) (w : Word) (i : Instr) : Prop where
  word    : assemble l = some w
  command : decodeCommand w = .ok i

/-- The table of 41_device_fsm.md R150, row by row. -/
def allowedIn : Instr → Fsm → Bool
  | .nop, _ => true
  | .attach, f => f == .unattached
  | .configure, f => f != .unattached
  | .powerUp, f => f == .configured || f == .listening
  | .readReg _, f => f != .unattached
  | .writeReg _ _, f => f != .unattached
  | .busyTest _, f => f == .listening
  | .sweep _ _, f => f == .listening
  | .cycle, f => f == .listening
  | .clearTable, _ => true
  | .readHit _, _ => true
  | .readStatus, _ => true
  | .rFrame _, _ => true
  | .wFrame _ _, _ => true

/-- The place of a bring-up state in the source's order (10_state.md R43). -/
def Fsm.rank : Fsm → Nat
  | .unattached => 0
  | .attached => 1
  | .configured => 2
  | .listening => 3

/-- What R13, R113, R225 and R226 let an instance issue: a GPIO call on its own enable line only, an
attach request with its own configuration, a frame whose first byte has bits [7:6] clear, a wait of
150 or 2000 microseconds. -/
def Event.permitted (cfg : Cfg) : Event → Prop
  | .gpioMode line _ => line = cfg.enLine
  | .gpioLevel line _ => line = cfg.enLine
  | .attachReq bus cs clk mode =>
      bus = cfg.busId ∧ cs = cfg.csLine ∧ clk = cfg.spiClkHz ∧ mode = cfg.spiMode
  | .xfer _ tx0 _ => tx0.extractLsb' 6 2 = 0#2
  | .delay us => us = 150 ∨ us = 2000

/-- Every event of the trace is one the block may issue. -/
def EventsPermitted (s : State) : Prop := ∀ e ∈ s.events, e.permitted s.cfg

/-- The invariants of 10_state.md R58 on the bring-up state. An enable line never driven means that
no ATTACH has run since reset, so nothing it or a frame would have left is there. -/
structure BringupInv (s : State) : Prop where
  devref_none  : s.devref = none ↔ s.fsm = .unattached
  ce_high      : s.ce = .high ↔ s.fsm = .listening
  ce_undriven  : s.ce = .undriven →
    s.fsm = .unattached ∧ s.attachFail = false ∧ s.rdFail = false ∧ s.wrFail = false

/-- The shape of the response word (30_encoding.md R105, R106): bits [23:16] are 0, and CODE is one
of the six codes. -/
def ResponseShape (s : State) : Prop :=
  s.resp.extractLsb' 16 8 = 0#8 ∧ (s.resp.extractLsb' 24 8).toNat ≤ 5

/-- Whether an event is a blocking call: the instance waits for it to be answered or to elapse
(60_exceptions.md R224, R226; log 3). -/
def Event.blocking : Event → Bool
  | .attachReq _ _ _ _ | .xfer _ _ _ | .delay _ => true
  | .gpioMode _ _ | .gpioLevel _ _ => false

/-- How many of these events are blocking calls. -/
def blockingCalls (es : List Event) : Nat := es.countP Event.blocking

/-- The microseconds the waits of a list of events last at the least (70_reset_and_hazards.md R252). -/
def totalDelay : List Event → Nat
  | [] => 0
  | .delay us :: es => us + totalDelay es
  | _ :: es => totalDelay es

/-- The frames of a list of events. -/
def frameCount : List Event → Nat
  | [] => 0
  | .xfer _ _ _ :: es => frameCount es + 1
  | _ :: es => frameCount es

/-- The frame of every command that only talks to the bus: the configuration, the bring-up state,
the attach flag, the enable level, the ports' inputs and the framer's port stay. -/
structure KeepsBringup (s t : State) : Prop where
  cfg        : t.cfg = s.cfg
  fsm        : t.fsm = s.fsm
  devref     : t.devref = s.devref
  attachFail : t.attachFail = s.attachFail
  ce         : t.ce = s.ce
  cmdIn      : t.cmdIn = s.cmdIn
  hostIn     : t.hostIn = s.hostIn
  frameIn    : t.frameIn = s.frameIn
  frameOut   : t.frameOut = s.frameOut
  attachIn   : t.attachIn = s.attachIn
  hangAfter  : t.hangAfter = s.hangAfter

/-- The command ended with this response word (R105): in `S.resp`, at the response port, and no
longer busy. -/
structure Answered (s t : State) (w : Word) : Prop where
  resp        : t.resp = w
  busy        : t.busy = false
  respWaiting : t.respWaiting = true
  responses   : t.responses = s.responses ++ [w]

/-- The state in which a command has ended with this response word and nothing else has changed
(R105): in `S.resp`, at the response port, not yet taken, and the block not busy. -/
def State.givesResponse (s : State) (w : Word) : State :=
  { s with resp := w, busy := false, respWaiting := true, responses := s.responses ++ [w] }

/-- The same instance where every call is answered (R253). -/
def State.fairly (s : State) : State := { s with hangAfter := none }

/-- The same instance where the blocking call after `n` more is never answered (log 3). -/
def State.hangingAfter (s : State) (n : Nat) : State := { s with hangAfter := some n }

/-- Every transfer failure flag set in the one state is set in the other (10_state.md R46). -/
structure FlagsKept (s t : State) : Prop where
  rdFail : s.rdFail = true → t.rdFail = true
  wrFail : s.wrFail = true → t.wrFail = true

/-- What a call that is never answered leaves of the state (R253, R214): the instance busy in its
command, no response, and everything else the command had not come to write as it was. -/
structure StandsIn (s t : State) : Prop where
  busy        : t.busy = true
  resp        : t.resp = s.resp
  respWaiting : t.respWaiting = s.respWaiting
  responses   : t.responses = s.responses
  cfg         : t.cfg = s.cfg
  fsm         : t.fsm = s.fsm
  devref      : t.devref = s.devref
  attachFail  : t.attachFail = s.attachFail
  cmdIn       : t.cmdIn = s.cmdIn
  hostIn      : t.hostIn = s.hostIn
  frameIn     : t.frameIn = s.frameIn
  frameOut    : t.frameOut = s.frameOut
  attachIn    : t.attachIn = s.attachIn
  hangAfter   : t.hangAfter = none

/-- The commands that make a blocking call whatever their operands, where R150 lets them run: ATTACH,
CONFIGURE, POWER_UP, READ_REG, WRITE_REG, and BUSY_TEST of a channel. -/
def alwaysCalls : Instr → Bool
  | .attach | .configure | .powerUp | .readReg _ | .writeReg _ _ => true
  | .busyTest c => decide (c.toNat ≤ 125)
  | _ => false

/-! ### The ideal register file (40_register_link.md R137)

The environment of R137, "a write frame stores `tx1` at `tx0[4:0]`, and a read frame answers
`Ok(anything, stored value at tx0[4:0])`". It is no part of the block. -/

/-- An ideal 32-entry register file. -/
abbrev RegFile := Vector Byte 32

/-- The file after one event. -/
def RegFile.after (f : RegFile) : Event → RegFile
  | .xfer _ tx0 tx1 =>
      if tx0.extractLsb' 5 3 = 0b001#3 then f.set (tx0.extractLsb' 0 5).toFin tx1 else f
  | _ => f

/-- The file after a list of events. -/
def RegFile.replay (f : RegFile) (es : List Event) : RegFile := es.foldl RegFile.after f

/-- The value a read frame with this first byte is answered. -/
def RegFile.value (f : RegFile) (tx0 : Byte) : Byte := f[(tx0.extractLsb' 0 5).toFin]

end Sys2Proof.Machine
end

