-- ==== Sys2Proof/Certificates/Slice0/Obligations.lean ====
section
/-! DEFINITION. The statements for the provers. `s.Fair` is the fairness of 70_reset_and_hazards.md
R253: every call of the instance is answered. `s.nthXfer n` is the answer the `Xfer` after `n` more
gets, any draw (R14). `s.devref = some ref` follows from the bring-up state by the invariant
`BringupInv` (10_state.md R45, R58), which is a statement of its own. -/

open Sys2Proof Sys2Proof.Machine

/-! ### Reset -/

/-- 10_state.md R57: every field after reset, of the machine's reset state and of that of every
configuration, and STATUS 0x0000. -/
def Obligations.ResetLeavesTheStatedValues : Prop :=
  ∀ s : State, (s = State.reset ∨ ∃ cfg, s = State.init cfg) →
    s.fsm = .unattached ∧ s.devref = none ∧
    s.attachFail = false ∧ s.rdFail = false ∧ s.wrFail = false ∧
    s.ce = .undriven ∧ (∀ c : Channel, s.hit[c] = 0x0000#16) ∧
    s.resp = 0x00000000#32 ∧ s.busy = false ∧ statusWord s = 0x0000#16

/-- 70_reset_and_hazards.md R240: a reset applied in any state, also in the middle of a command,
sets every field of S to the value of R57, gives no response, issues no event and leaves the command
port ready. -/
def Obligations.ResetSetsEveryFieldAndIssuesNothing : Prop :=
  ∀ s : State, s.cfg.wellFormed = true → s.hostIn.head? = some .reset →
    ∃ t, step s = .next t ∧
      t.fsm = .unattached ∧ t.devref = none ∧
      t.attachFail = false ∧ t.rdFail = false ∧ t.wrFail = false ∧
      t.ce = .undriven ∧ (∀ c : Channel, t.hit[c] = 0x0000#16) ∧
      t.resp = 0x00000000#32 ∧ t.busy = false ∧ t.respWaiting = false ∧
      t.cfg = s.cfg ∧ t.events = s.events ∧ t.responses = s.responses

/-! ### The step -/

/-- 60_exceptions.md R227, 00_scope.md R9: where no reset is applied, no frame stands at the framer
and the last response is taken, the oldest presented word is accepted, and the step is the command
it decodes to, on the state after the host's move and the acceptance; or, for an ILLEGAL word, the
answer ERR_ILLEGAL. The port's fields are the model's (log 4). -/
def Obligations.StepRunsTheDecodedCommand : Prop :=
  ∀ (s : State) (w : Word) (ws : List Word),
    s.cfg.wellFormed = true → s.hostIn.head? ≠ some .reset → s.busy = false → s.frameIn = none →
    (s.respWaiting = false ∨ s.hostIn.head? = some .takeResponse) → s.cmdIn = w :: ws →
    (∀ i, decodeCommand w = .ok i →
      step s = exec i { s with cmdIn := ws, hostIn := s.hostIn.tail, respWaiting := false }) ∧
    (∀ e, decodeCommand w = .error e →
      step s = .next (State.givesResponse
        { s with cmdIn := ws, hostIn := s.hostIn.tail, respWaiting := false } 0x01000000#32))

/-- The model's own port for the table's frames (log 5): the step is the frame the two bytes decode
to, on the state after the host's move and the taking of the frame; a pair of bytes that is no frame
is dropped (log 13): it is taken, and nothing else happens. -/
def Obligations.StepRunsTheDecodedFrame : Prop :=
  ∀ (s u : State) (tx0 tx1 : Byte),
    s.cfg.wellFormed = true → s.hostIn.head? ≠ some .reset → s.busy = false →
    s.frameIn = some (tx0, tx1) →
    u = { s with
      frameIn := none
      hostIn := s.hostIn.tail
      respWaiting := s.respWaiting && s.hostIn.head? != some .takeResponse } →
    (∀ i, decodeFrame tx0 tx1 = .ok i → step s = exec i u) ∧
    (∀ e, decodeFrame tx0 tx1 = .error e → step s = .next u)

/-- 60_exceptions.md R212: in every state, an accepted word that decodes to ILLEGAL, one whose OP is
0xC..0xF or whose RSV is not 0, writes only `S.resp <- 0x01000000` and issues no event. -/
def Obligations.IllegalWordOnlyAnswersErrIllegal : Prop :=
  ∀ (w : Word) (s : State),
    (0xC ≤ (w.extractLsb' 28 4).toNat ∨ w.extractLsb' 24 4 ≠ 0#4) →
    runCommand w s = .next (s.givesResponse 0x01000000#32)

/-- 60_exceptions.md R227, 10_state.md R53: a presented command waits, and is not dropped, while the
last response is not taken. The port's fields are the model's form of R227 (log 4). -/
def Obligations.PresentedCommandWaitsForTheResponse : Prop :=
  ∀ s : State, s.cfg.wellFormed = true → s.frameIn = none → s.respWaiting = true →
    s.hostIn.head? ≠ some .reset → s.hostIn.head? ≠ some .takeResponse →
    step s = .next { s with hostIn := s.hostIn.tail }

/-- 70_reset_and_hazards.md R254: the block never stops by itself. Every step of an instance with a
well-formed configuration, in any state whatever, answers a next state. -/
def Obligations.BlockNeverStopsByItself : Prop :=
  ∀ s : State, s.cfg.wellFormed = true → ∃ t, step s = .next t

/-- 10_state.md R41: an instance with an ill-formed configuration has no step, and neither has a
system that uses a chip-select or enable line twice. A well-formed one is not refused. -/
def Obligations.IllFormedConfigurationHasNoStep : Prop :=
  (∀ s : State,
    (s.cfg.spiClkHz = 0 ∨ s.cfg.maxClkHz < s.cfg.spiClkHz ∨ 255 < s.cfg.winStart ∨
      255 < s.cfg.winCount ∨ 65535 < s.cfg.sweepsPerCycle ∨ s.cfg.csLine = s.cfg.enLine) ↔
    step s = .refused .illFormedConfig) ∧
  (∀ (y : System) (j k : Nat) (s t : State), j ≠ k →
    y.instances[j]? = some s → y.instances[k]? = some t →
    (s.cfg.csLine = t.cfg.csLine ∨ s.cfg.csLine = t.cfg.enLine ∨ s.cfg.enLine = t.cfg.enLine) →
    y.step = .refused .illFormedConfig)

/-- 60_exceptions.md R222: a step of one instance neither reads nor writes another. What the instance
whose turn it is does is its own step, of its own state alone; every other instance is unchanged. -/
def Obligations.InstancesDoNotInteract : Prop :=
  ∀ y z : System, y.step = .next z →
    z.instances.length = y.instances.length ∧
    (∀ j, y.turns.head? ≠ some j → z.instances[j]? = y.instances[j]?) ∧
    (∀ k s, y.turns.head? = some k → y.instances[k]? = some s →
      ∃ t, step s = .next t ∧ z.instances[k]? = some t)

/-! ### Decoding -/

/-- 30_encoding.md R104, R111, R112: words written out from the encodings of the spec. -/
def Obligations.SpecWordsDecode : Prop :=
  decodeCommand 0x00FFFFFF#32 = .ok .nop ∧
  decodeCommand 0x10000000#32 = .ok .attach ∧
  decodeCommand 0x5012AB34#32 = .ok (.writeReg 0x12#8 0x34#8) ∧
  decodeCommand 0x60280000#32 = .ok (.busyTest 40#8) ∧
  decodeCommand 0x70643200#32 = .ok (.sweep 100#8 50#8) ∧
  decodeCommand 0xA0070000#32 = .ok (.readHit 7#8) ∧
  decodeFrame 0b00001001#8 0xFF#8 = .ok (.rFrame 0b01001#5) ∧
  decodeFrame 0b00111111#8 0xAB#8 = .ok (.wFrame 0b11111#5 0xAB#8)

/-- 30_encoding.md R100, R104, R111, R112: no bit of an operand is dropped. Decoding the encoding of
any instruction, with any operands and any filler, gives the instruction back. -/
def Obligations.DecodeOfEncodeIsTheInstruction : Prop :=
  ∀ (filler : Byte) (i : Instr), decode (encode filler i) = .ok i

/-- 30_encoding.md R103: decoding is total: a word is ILLEGAL if OP is 0xC or more or RSV is not 0,
and otherwise it is the command of its OP, with FA, FB and FC from their bits. -/
def Obligations.EveryWordIsOneCommandOrIllegal : Prop :=
  ∀ w : Word,
    ((0xC ≤ (w.extractLsb' 28 4).toNat ∨ w.extractLsb' 24 4 ≠ 0#4) →
      ∃ e, decodeCommand w = .error e) ∧
    ((w.extractLsb' 28 4).toNat < 0xC → w.extractLsb' 24 4 = 0#4 →
      ∃ i, decodeCommand w = .ok i ∧
        [Instr.nop, .attach, .configure, .powerUp, .readReg (w.extractLsb' 16 8),
          .writeReg (w.extractLsb' 16 8) (w.extractLsb' 0 8), .busyTest (w.extractLsb' 16 8),
          .sweep (w.extractLsb' 16 8) (w.extractLsb' 8 8), .clearTable, .cycle,
          .readHit (w.extractLsb' 16 8), .readStatus][(w.extractLsb' 28 4).toNat]? = some i)

/-- 30_encoding.md R102: two words with one OP and one RSV that agree on the fields the command uses
decode alike, whatever their other fields. -/
def Obligations.UnusedFieldsDoNotMatter : Prop :=
  ∀ v w : Word, v.extractLsb' 24 8 = w.extractLsb' 24 8 →
    ((v.extractLsb' 28 4).toNat ∈ [0x0, 0x1, 0x2, 0x3, 0x8, 0x9, 0xB] →
      decodeCommand v = decodeCommand w) ∧
    ((v.extractLsb' 28 4).toNat ∈ [0x4, 0x6, 0xA] → v.extractLsb' 16 8 = w.extractLsb' 16 8 →
      decodeCommand v = decodeCommand w) ∧
    ((v.extractLsb' 28 4).toNat = 0x5 → v.extractLsb' 16 8 = w.extractLsb' 16 8 →
      v.extractLsb' 0 8 = w.extractLsb' 0 8 → decodeCommand v = decodeCommand w) ∧
    ((v.extractLsb' 28 4).toNat = 0x7 → v.extractLsb' 16 8 = w.extractLsb' 16 8 →
      v.extractLsb' 8 8 = w.extractLsb' 8 8 → decodeCommand v = decodeCommand w)

/-- 30_encoding.md R114, R104: the word each mnemonic assembles to, with its operands in their fields
and RSV and every unused field 0, and the command that word is; a line whose operands fit assembles
to the encoding of its command; an operand above 255 is refused; `.word` writes the raw word. Lines
are tokens, not text (log 14). -/
def Obligations.AssembledLinesDecodeToTheirCommands : Prop :=
  (∀ a v : Nat, a ≤ 255 → v ≤ 255 →
    AssemblesTo ⟨.nop, []⟩ 0x00000000#32 .nop ∧
    AssemblesTo ⟨.attach, []⟩ 0x10000000#32 .attach ∧
    AssemblesTo ⟨.configure, []⟩ 0x20000000#32 .configure ∧
    AssemblesTo ⟨.powerUp, []⟩ 0x30000000#32 .powerUp ∧
    AssemblesTo ⟨.readReg, [a]⟩ (0x40#8 ++ BitVec.ofNat 8 a ++ 0x0000#16)
      (.readReg (BitVec.ofNat 8 a)) ∧
    AssemblesTo ⟨.writeReg, [a, v]⟩ (0x50#8 ++ BitVec.ofNat 8 a ++ 0x00#8 ++ BitVec.ofNat 8 v)
      (.writeReg (BitVec.ofNat 8 a) (BitVec.ofNat 8 v)) ∧
    AssemblesTo ⟨.busyTest, [a]⟩ (0x60#8 ++ BitVec.ofNat 8 a ++ 0x0000#16)
      (.busyTest (BitVec.ofNat 8 a)) ∧
    AssemblesTo ⟨.sweep, [a, v]⟩ (0x70#8 ++ BitVec.ofNat 8 a ++ BitVec.ofNat 8 v ++ 0x00#8)
      (.sweep (BitVec.ofNat 8 a) (BitVec.ofNat 8 v)) ∧
    AssemblesTo ⟨.clearTable, []⟩ 0x80000000#32 .clearTable ∧
    AssemblesTo ⟨.cycle, []⟩ 0x90000000#32 .cycle ∧
    AssemblesTo ⟨.readHit, [a]⟩ (0xA0#8 ++ BitVec.ofNat 8 a ++ 0x0000#16)
      (.readHit (BitVec.ofNat 8 a)) ∧
    AssemblesTo ⟨.readStatus, []⟩ 0xB0000000#32 .readStatus) ∧
  (∀ l : AsmLine, l.mnemonic ≠ .rawWord → l.wellFormed = true →
    ∃ i w, lineInstr l = some i ∧ AssemblesTo l w i ∧ encode 0 i = .command w) ∧
  (∀ l : AsmLine, l.mnemonic ≠ .rawWord → (∃ n ∈ l.operands, 255 < n) → assemble l = none) ∧
  (∀ w : Word, assemble ⟨.rawWord, [w.toNat]⟩ = some w)

/-- 30_encoding.md R115: what the pseudo-commands expand to. The READ_HITs of `REPORT` are those of
the channels `s`, `s+1`, ..., `e-1`, none if `s` is 126 or more. -/
def Obligations.PseudoCommandsExpandAsListed : Prop :=
  ∀ cfg : Cfg,
    Pseudo.expand cfg .bringup = [.attach, .configure, .powerUp] ∧
    Pseudo.expand cfg .sweepWin =
      [.sweep (BitVec.ofNat 8 cfg.winStart) (BitVec.ofNat 8 cfg.winCount)] ∧
    Pseudo.expand cfg .report =
      .cycle :: (List.range' cfg.winStart
        (min (cfg.winStart + cfg.winCount) 126 - cfg.winStart)).map fun c =>
          .readHit (BitVec.ofNat 8 c)

/-! ### The bring-up controller -/

/-- 41_device_fsm.md R151: OP 0x0, FA, FB and FC ignored; OK in every state, and nothing changes. -/
def Obligations.NopAnswersOkAndChangesNothing : Prop :=
  WordsDecodeTo 0x00#8 (fun _ => .nop) ∧
  ∀ s : State, exec .nop s = .next (s.givesResponse 0x00000000#32)

/-- 41_device_fsm.md R152: refused unless UNATTACHED; otherwise three events in their order, the
enable line low, and the state the transport's answer gives. -/
def Obligations.AttachBindsTheDeviceOrReportsTheFailure : Prop :=
  WordsDecodeTo 0x10#8 (fun _ => .attach) ∧
  ∀ s : State,
    (s.fsm ≠ .unattached → exec .attach s = .next (s.givesResponse 0x02000000#32)) ∧
    (s.fsm = .unattached → s.Fair →
      (∀ ref, s.attachAnswer = .ok ref →
        exec .attach s = .next (State.givesResponse { s.popAttach with
          ce := .low
          devref := some ref
          fsm := .attached
          events := s.events ++ [.gpioMode s.cfg.enLine .output, .gpioLevel s.cfg.enLine .low,
            .attachReq s.cfg.busId s.cfg.csLine s.cfg.spiClkHz s.cfg.spiMode] } 0x00000000#32)) ∧
      (s.attachAnswer = .err →
        exec .attach s = .next (State.givesResponse { s.popAttach with
          ce := .low
          attachFail := true
          events := s.events ++ [.gpioMode s.cfg.enLine .output, .gpioLevel s.cfg.enLine .low,
            .attachReq s.cfg.busId s.cfg.csLine s.cfg.spiClkHz s.cfg.spiMode] } 0x04000000#32)))

/-- 41_device_fsm.md R154: refused when UNATTACHED; otherwise the two writes, EN_AA first, unchecked,
ATTACHED becomes CONFIGURED and no other state moves. -/
def Obligations.ConfigureWritesTwoRegistersAndNeverLowers : Prop :=
  WordsDecodeTo 0x20#8 (fun _ => .configure) ∧
  ∀ s : State,
    (s.fsm = .unattached → exec .configure s = .next (s.givesResponse 0x02000000#32)) ∧
    (∀ ref, s.fsm ≠ .unattached → s.devref = some ref → s.Fair →
      exec .configure s = .next (State.givesResponse { s.popXfer.popXfer with
        fsm := if s.fsm = .attached then .configured else s.fsm
        wrFail := s.wrFail || (s.nthXfer 0).isErr || (s.nthXfer 1).isErr
        events := s.events ++
          [.xfer ref (0b001#3 ++ s.cfg.addrEnAa) s.cfg.valEnAa,
            .xfer ref (0b001#3 ++ s.cfg.addrRfSetup) s.cfg.valRfSetup] } 0x00000000#32))

/-- 41_device_fsm.md R155: refused before CONFIGURED; otherwise the CONFIG write, at least 2000
microseconds, the enable line high, also when the write failed; LISTENING. -/
def Obligations.PowerUpWaitsThenDrivesTheEnableLineHigh : Prop :=
  WordsDecodeTo 0x30#8 (fun _ => .powerUp) ∧
  ∀ s : State,
    (s.fsm = .unattached ∨ s.fsm = .attached →
      exec .powerUp s = .next (s.givesResponse 0x02000000#32)) ∧
    (∀ ref, s.fsm = .configured ∨ s.fsm = .listening → s.devref = some ref → s.Fair →
      exec .powerUp s = .next (State.givesResponse { s.popXfer with
        fsm := .listening
        ce := .high
        wrFail := s.wrFail || (s.nthXfer 0).isErr
        events := s.events ++
          [.xfer ref (0b001#3 ++ s.cfg.addrConfig) s.cfg.valConfig, .delay 2000,
            .gpioLevel s.cfg.enLine .high] } 0x00000000#32))

/-- 41_device_fsm.md R157, 10_state.md R49: STATUS bit by bit, in DATA of an OK response; nothing else
changes, no flag is cleared. -/
def Obligations.ReadStatusShowsTheStateBitByBit : Prop :=
  WordsDecodeTo 0xB0#8 (fun _ => .readStatus) ∧
  ∀ s : State, ∃ st : Half,
    exec .readStatus s = .next (s.givesResponse (0x00#8 ++ 0x00#8 ++ st)) ∧
    st.extractLsb' 0 2 = (match s.fsm with
      | .unattached => 0b00#2 | .attached => 0b01#2 | .configured => 0b10#2 | .listening => 0b11#2) ∧
    st.getLsbD 2 = s.attachFail ∧ st.getLsbD 3 = s.rdFail ∧ st.getLsbD 4 = s.wrFail ∧
    st.extractLsb' 5 2 = (match s.ce with
      | .undriven => 0b00#2 | .low => 0b01#2 | .high => 0b10#2) ∧
    st.extractLsb' 7 9 = 0#9

/-- 41_device_fsm.md R150, 60_exceptions.md R213: a command the table refuses in this bring-up state
only answers ERR_STATE, with no event; one the table allows runs, and its answer is not ERR_STATE. -/
def Obligations.PreconditionTableHolds : Prop :=
  ∀ (i : Instr) (s : State), isCommand i = true →
    (allowedIn i s.fsm = false → exec i s = .next (s.givesResponse 0x02000000#32)) ∧
    (allowedIn i s.fsm = true → BringupInv s → s.Fair →
      ∃ t, exec i s = .next t ∧ t.busy = false ∧ t.respCode ≠ 0x02#8)

/-- 30_encoding.md R115, 70_reset_and_hazards.md R244: BRINGUP, run by a host that stops at the first
response that is not OK, reaches LISTENING with the enable line high if the attach is answered Ok,
and stops after ATTACH, still UNATTACHED, if not. -/
def Obligations.BringupReachesListeningOrStopsAtAttach : Prop :=
  ∀ s : State, s.fsm = .unattached → s.Fair →
    (∀ ref, s.attachAnswer = .ok ref →
      ∃ t, hostRun (Pseudo.expand s.cfg .bringup) s = t ∧
        t.fsm = .listening ∧ t.ce = .high ∧ t.devref = some ref ∧ t.hit = s.hit ∧
        t.responses = s.responses ++ [0x00000000#32, 0x00000000#32, 0x00000000#32]) ∧
    (s.attachAnswer = .err →
      ∃ t, hostRun (Pseudo.expand s.cfg .bringup) s = t ∧
        t.fsm = .unattached ∧ t.devref = s.devref ∧ t.ce = .low ∧
        t.events = s.events ++ [.gpioMode s.cfg.enLine .output, .gpioLevel s.cfg.enLine .low,
          .attachReq s.cfg.busId s.cfg.csLine s.cfg.spiClkHz s.cfg.spiMode] ∧
        t.responses = s.responses ++ [0x04000000#32])

/-- 41_device_fsm.md R156: where no frame fails, `CONFIGURE; POWER_UP` twice ends in the state of
once: LISTENING, enable line high, the same reference, flags and hit table; and whatever the
transceiver's registers held, the writes of both leave them the same. -/
def Obligations.ConfiguringTwiceIsConfiguringOnce : Prop :=
  ∀ (s : State) (ref : DevRef), s.fsm = .attached → s.devref = some ref → s.Fair →
    (∀ n, n < 6 → (s.nthXfer n).isErr = false) →
    ∃ t u es fs,
      hostRun [.configure, .powerUp] s = t ∧
      hostRun [.configure, .powerUp, .configure, .powerUp] s = u ∧
      t.responses = s.responses ++ [0#32, 0#32] ∧
      u.responses = s.responses ++ [0#32, 0#32, 0#32, 0#32] ∧
      t.fsm = .listening ∧ u.fsm = .listening ∧ t.ce = .high ∧ u.ce = .high ∧
      t.devref = s.devref ∧ u.devref = s.devref ∧
      t.attachFail = s.attachFail ∧ u.attachFail = s.attachFail ∧
      t.rdFail = s.rdFail ∧ u.rdFail = s.rdFail ∧ t.wrFail = s.wrFail ∧ u.wrFail = s.wrFail ∧
      t.hit = s.hit ∧ u.hit = s.hit ∧
      t.events = s.events ++ es ∧ u.events = s.events ++ fs ∧
      es.length = 5 ∧ fs = es ++ es ∧
      ∀ f : RegFile, f.replay es = f.replay fs

/-! ### The framer -/

/-- 40_register_link.md R135, R130, R132: refused when UNATTACHED; otherwise one read frame at the
masked address, the value or XFER_FAIL with DATA 0, and the flag of a failure. -/
def Obligations.ReadRegAnswersTheValueOrXferFail : Prop :=
  WordsDecodeTo 0x40#8 (fun w => .readReg (w.extractLsb' 16 8)) ∧
  ∀ (a8 : Byte) (s : State),
    (s.fsm = .unattached → exec (.readReg a8) s = .next (s.givesResponse 0x02000000#32)) ∧
    (∀ ref, s.fsm ≠ .unattached → s.devref = some ref → s.Fair →
      (∀ rx0 rx1, s.xferAnswer = .ok rx0 rx1 →
        exec (.readReg a8) s = .next (State.givesResponse { s.popXfer with
          events := s.events ++ [.xfer ref (0b000#3 ++ a8.extractLsb' 0 5) s.cfg.filler] }
          (0x000000#24 ++ rx1))) ∧
      (s.xferAnswer = .err →
        exec (.readReg a8) s = .next (State.givesResponse { s.popXfer with
          rdFail := true
          events := s.events ++ [.xfer ref (0b000#3 ++ a8.extractLsb' 0 5) s.cfg.filler] }
          0x05000000#32)))

/-- 40_register_link.md R136, R131, R132: refused when UNATTACHED; otherwise one write frame at the
masked address and OK, also when it failed; the bring-up state never moves. -/
def Obligations.WriteRegAnswersOkWhateverTheFrameMeets : Prop :=
  WordsDecodeTo 0x50#8 (fun w => .writeReg (w.extractLsb' 16 8) (w.extractLsb' 0 8)) ∧
  ∀ (a8 v : Byte) (s : State),
    (s.fsm = .unattached → exec (.writeReg a8 v) s = .next (s.givesResponse 0x02000000#32)) ∧
    (∀ ref, s.fsm ≠ .unattached → s.devref = some ref → s.Fair →
      exec (.writeReg a8 v) s = .next (State.givesResponse { s.popXfer with
        wrFail := s.wrFail || s.xferAnswer.isErr
        events := s.events ++ [.xfer ref (0b001#3 ++ a8.extractLsb' 0 5) v] } 0x00000000#32))

/-- 40_register_link.md R138: WRITE_REG sends `0x20 | (a8 & 0x1F)` and the value, READ_REG sends
`a8 & 0x1F`; a write's command bits are 001 whatever the address operand. -/
def Obligations.AddressOperandsAreMasked : Prop :=
  ∀ (a8 v : Byte) (s : State) (ref : DevRef),
    s.fsm ≠ .unattached → s.devref = some ref → s.Fair →
    (∃ t tx0, exec (.writeReg a8 v) s = .next t ∧ t.events = s.events ++ [.xfer ref tx0 v] ∧
      tx0 = 0x20#8 ||| (a8 &&& 0x1F#8) ∧ tx0.extractLsb' 5 3 = 0b001#3) ∧
    (∃ t, exec (.readReg a8) s = .next t ∧
      t.events = s.events ++ [.xfer ref (a8 &&& 0x1F#8) s.cfg.filler])

/-- 40_register_link.md R137: if the write's frame is answered Ok and the read's frame is answered as
an ideal register file answers it, having taken the frame the write sent, then WRITE_REG and
READ_REG of one address operand, 0..255, read back the value, with OK. -/
def Obligations.WriteThenReadGivesTheValueBack : Prop :=
  ∀ (f : RegFile) (a8 v x0 x1 y0 : Byte) (s : State) (ref : DevRef),
    s.fsm ≠ .unattached → s.devref = some ref → s.Fair → s.nthXfer 0 = .ok x0 x1 →
    ∃ t u es tx0 tx1,
      exec (.writeReg a8 v) s = .next t ∧ exec (.readReg a8) t = .next u ∧
      t.events = s.events ++ es ∧ es.length = 1 ∧
      u.events = t.events ++ [.xfer ref tx0 tx1] ∧
      (s.nthXfer 1 = .ok y0 ((f.replay es).value tx0) → u.resp = 0x000000#24 ++ v)

/-- 30_encoding.md R111, 40_register_link.md R130: a read frame with a device reference is one `Xfer`
of `000 ‖ a` and the filler; its value is `rx1`, or it failed and sets `S.rd_fail`. Without a
reference no frame is sent (log 5). The framer's own port is the model's (log 5). -/
def Obligations.ReadFrameIsOneTransfer : Prop :=
  ∀ (a : RegAddr) (s : State),
    (s.devref = none → exec (.rFrame a) s = .next { s with frameOut := .noDevice }) ∧
    (∀ ref, s.devref = some ref → s.Fair →
      (∀ rx0 rx1, s.xferAnswer = .ok rx0 rx1 →
        exec (.rFrame a) s = .next { s.popXfer with
          frameOut := .value rx1
          events := s.events ++ [.xfer ref (0b000#3 ++ a) s.cfg.filler] }) ∧
      (s.xferAnswer = .err →
        exec (.rFrame a) s = .next { s.popXfer with
          frameOut := .failed
          rdFail := true
          events := s.events ++ [.xfer ref (0b000#3 ++ a) s.cfg.filler] }))

/-- 30_encoding.md R112, 40_register_link.md R131: a write frame with a device reference is one `Xfer`
of `001 ‖ a` and the value; a failure only sets `S.wr_fail`. Without a reference no frame is sent
(log 5). The framer's own port is the model's (log 5). -/
def Obligations.WriteFrameIsOneTransfer : Prop :=
  ∀ (a : RegAddr) (v : Byte) (s : State),
    (s.devref = none → exec (.wFrame a v) s = .next { s with frameOut := .noDevice }) ∧
    (∀ ref, s.devref = some ref → s.Fair →
      exec (.wFrame a v) s = .next { s.popXfer with
        frameOut := .nothing
        wrFail := s.wrFail || s.xferAnswer.isErr
        events := s.events ++ [.xfer ref (0b001#3 ++ a) v] })

/-! ### The sequencer and the hit table -/

/-- 42_band_scanner.md R180, R181; 60_exceptions.md R215, R218: ERR_STATE unless listening, then
ERR_RANGE for 126 and above, both without an event; otherwise the channel write, at least 150
microseconds and the RPD read, whatever fails, and bit 0 of the value or XFER_FAIL. The hit table is
not written. -/
def Obligations.BusyTestTestsOneChannel : Prop :=
  WordsDecodeTo 0x60#8 (fun w => .busyTest (w.extractLsb' 16 8)) ∧
  ∀ (c : Byte) (s : State),
    (s.fsm ≠ .listening → exec (.busyTest c) s = .next (s.givesResponse 0x02000000#32)) ∧
    (∀ ref, s.fsm = .listening → s.devref = some ref → 126 ≤ c.toNat →
      exec (.busyTest c) s = .next (s.givesResponse 0x03000000#32)) ∧
    (∀ ref, s.fsm = .listening → s.devref = some ref → c.toNat ≤ 125 → s.Fair →
      exec (.busyTest c) s = .next (State.givesResponse { s.popXfer.popXfer with
        wrFail := s.wrFail || (s.nthXfer 0).isErr
        rdFail := s.rdFail || (s.nthXfer 1).isErr
        events := s.events ++ [.xfer ref (0b001#3 ++ s.cfg.addrRfCh) c, .delay 150,
          .xfer ref (0b000#3 ++ s.cfg.addrRpd) s.cfg.filler] }
        (match s.nthXfer 1 with
          | .ok _ v => if v.getLsbD 0 then 0x00000001#32 else 0x00000000#32
          | .err => 0x05000000#32)))

/-- 42_band_scanner.md R182: a window selects the channels `start <= c < min(start + count, 126)`, in
ascending order, each once, and their number is the clipped size. -/
def Obligations.WindowSelectsItsChannelsInOrder : Prop :=
  ∀ start count : Nat, start ≤ 255 → count ≤ 255 →
    (∀ c : Channel, c ∈ windowChannels start count ↔
      start ≤ c.val ∧ c.val < min (start + count) 126) ∧
    (windowChannels start count).Pairwise (· < ·) ∧
    (windowChannels start count).length = min (start + count) 126 - start ∧
    windowSize start count = min (start + count) 126 - start

/-- 42_band_scanner.md R183, R184, R186, R191, R192: SWEEP from listening tests each channel of its
clipped window once, in ascending order, whatever fails; exactly the counters of the channels found
busy go up by one, saturating; DATA is the number of channels. The RPD read of channel `c` is the
`Xfer` after `2 * (c - start) + 1` others. -/
def Obligations.SweepCountsBusyChannelsOnce : Prop :=
  WordsDecodeTo 0x70#8 (fun w => .sweep (w.extractLsb' 16 8) (w.extractLsb' 8 8)) ∧
  ∀ (start count : Byte) (s : State),
    (s.fsm ≠ .listening → exec (.sweep start count) s = .next (s.givesResponse 0x02000000#32)) ∧
    (∀ ref, s.fsm = .listening → s.devref = some ref → s.Fair →
      ∃ (t : State) (n : Nat), exec (.sweep start count) s = .next t ∧
        n = min (start.toNat + count.toNat) 126 - start.toNat ∧
        Answered s t (BitVec.ofNat 32 n) ∧ KeepsBringup s t ∧
        (∀ c : Channel, t.hit[c] =
          if start.toNat ≤ c.val ∧ c.val < min (start.toNat + count.toNat) 126 ∧
              (s.nthXfer (2 * (c.val - start.toNat) + 1)).isBusy = true
          then (if s.hit[c] = 0xFFFF#16 then 0xFFFF#16 else s.hit[c] + 1)
          else s.hit[c]) ∧
        t.events = s.events ++ ((List.finRange 126).filter fun c =>
          decide (start.toNat ≤ c.val ∧ c.val < min (start.toNat + count.toNat) 126)).flatMap
            (busyTestEvents s.cfg ref) ∧
        t.wrFail = (s.wrFail || (List.range n).any fun j => (s.nthXfer (2 * j)).isErr) ∧
        t.rdFail = (s.rdFail || (List.range n).any fun j => (s.nthXfer (2 * j + 1)).isErr) ∧
        ∀ m, t.nthXfer m = s.nthXfer (2 * n + m))

/-- 42_band_scanner.md R190: `SWEEP 100, 50` issues busy tests on exactly the channels 100 to 125, 26
of them, and writes no counter outside them. -/
def Obligations.SweepOf100And50TouchesChannels100To125 : Prop :=
  ∀ (s : State) (ref : DevRef), s.fsm = .listening → s.devref = some ref → s.Fair →
    ∃ t, exec (.sweep 100#8 50#8) s = .next t ∧ t.resp = 0x0000001A#32 ∧
      t.events = s.events ++ (List.range' 100 26).flatMap (fun c =>
        [.xfer ref (0b001#3 ++ s.cfg.addrRfCh) (BitVec.ofNat 8 c), .delay 150,
          .xfer ref (0b000#3 ++ s.cfg.addrRpd) s.cfg.filler]) ∧
      ∀ c : Channel, c.val < 100 → t.hit[c] = s.hit[c]

/-- 42_band_scanner.md R187: in every state the whole table is cleared, and nothing else happens. -/
def Obligations.ClearTableZeroesEveryCounter : Prop :=
  WordsDecodeTo 0x80#8 (fun _ => .clearTable) ∧
  ∀ s : State, ∃ t, exec .clearTable s = .next t ∧ (∀ c : Channel, t.hit[c] = 0x0000#16) ∧
    t = State.givesResponse { s with hit := t.hit } 0x00000000#32

/-- 42_band_scanner.md R188, R189, R195: CYCLE from listening clears the table and then sweeps the
configured window `K` times; afterwards the counter of a channel of the window is the number of the
`K` sweeps that found it busy, and every other counter is 0. The RPD read of channel `c` in sweep `k`
is the `Xfer` after `2 * (k * n + (c - start)) + 1` others. -/
def Obligations.CycleCountsTheSweepsThatFoundEachChannelBusy : Prop :=
  WordsDecodeTo 0x90#8 (fun _ => .cycle) ∧
  ∀ s : State,
    (s.fsm ≠ .listening → exec .cycle s = .next (s.givesResponse 0x02000000#32)) ∧
    (∀ ref, s.fsm = .listening → s.devref = some ref → s.Fair → s.cfg.wellFormed = true →
      ∃ (t : State) (b e n k : Nat), exec .cycle s = .next t ∧
        b = s.cfg.winStart ∧ e = min (s.cfg.winStart + s.cfg.winCount) 126 ∧ n = e - b ∧
        k = s.cfg.sweepsPerCycle ∧
        Answered s t (BitVec.ofNat 32 n) ∧ KeepsBringup s t ∧
        (∀ c : Channel, t.hit[c].toNat =
          if b ≤ c.val ∧ c.val < e then
            (List.range k).countP fun j => (s.nthXfer (2 * (j * n + (c.val - b)) + 1)).isBusy
          else 0) ∧
        t.events = s.events ++ (List.replicate k (((List.finRange 126).filter fun c =>
          decide (b ≤ c.val ∧ c.val < e)).flatMap (busyTestEvents s.cfg ref))).flatten ∧
        t.wrFail = (s.wrFail || (List.range (k * n)).any fun j => (s.nthXfer (2 * j)).isErr) ∧
        t.rdFail = (s.rdFail || (List.range (k * n)).any fun j => (s.nthXfer (2 * j + 1)).isErr) ∧
        ∀ m, t.nthXfer m = s.nthXfer (2 * (k * n) + m))

/-- 42_band_scanner.md R196: in every state the counter of a channel, zero-extended, and ERR_RANGE for
126 and above; nothing else changes. -/
def Obligations.ReadHitAnswersTheCounter : Prop :=
  WordsDecodeTo 0xA0#8 (fun w => .readHit (w.extractLsb' 16 8)) ∧
  ∀ (c : Byte) (s : State),
    (∀ h : c.toNat < 126, exec (.readHit c) s = .next (s.givesResponse (0x0000#16 ++ s.hit[c.toNat]))) ∧
    (126 ≤ c.toNat → exec (.readHit c) s = .next (s.givesResponse 0x03000000#32))

/-- 42_band_scanner.md R194: SWEEP only increments, CYCLE and CLEAR_TABLE clear, and every other
instruction, frames included, leaves every counter unchanged. -/
def Obligations.OnlyScansAndClearsWriteTheTable : Prop :=
  ∀ (i : Instr) (s t : State), exec i s = .next t →
    (i ≠ .clearTable → i ≠ .cycle → (∀ b n, i ≠ .sweep b n) → ∀ c : Channel, t.hit[c] = s.hit[c]) ∧
    ((∃ b n, i = .sweep b n) → ∀ c : Channel,
      t.hit[c] = s.hit[c] ∨ t.hit[c].toNat = min (s.hit[c].toNat + 1) 0xFFFF) ∧
    (i = .clearTable → ∀ c : Channel, t.hit[c] = 0x0000#16)

/-- 42_band_scanner.md R186, 10_state.md R58: a step gives a counter a new value other than 0 only if
it wrote that counter's channel to RF_CH, that is, tested that channel. -/
def Obligations.CountersGrowOnlyWhereTheirChannelWasTested : Prop :=
  ∀ s t : State, step s = .next t →
    ∃ es, t.events = s.events ++ es ∧
      ∀ c : Channel, t.hit[c] = s.hit[c] ∨ t.hit[c] = 0x0000#16 ∨
        ∃ ref, Event.xfer ref (0b001#3 ++ s.cfg.addrRfCh) (BitVec.ofNat 8 c.val) ∈ es

/-- 70_reset_and_hazards.md R252: the waits and frames of a command: POWER_UP 2000 microseconds and
one frame, BUSY_TEST 150 and two, SWEEP of `n` channels `n` times that, CYCLE `K * n` times. -/
def Obligations.CommandsWaitAtLeastTheirBounds : Prop :=
  ∀ (s : State) (ref : DevRef), s.devref = some ref → s.Fair →
    (s.fsm = .configured ∨ s.fsm = .listening → ∃ t es, exec .powerUp s = .next t ∧
      t.events = s.events ++ es ∧ totalDelay es = 2000 ∧ frameCount es = 1) ∧
    (s.fsm = .listening →
      (∀ c : Byte, c.toNat ≤ 125 → ∃ t es, exec (.busyTest c) s = .next t ∧
        t.events = s.events ++ es ∧ totalDelay es = 150 ∧ frameCount es = 2) ∧
      (∀ b m : Byte, ∃ t es, exec (.sweep b m) s = .next t ∧ t.events = s.events ++ es ∧
        totalDelay es = (min (b.toNat + m.toNat) 126 - b.toNat) * 150 ∧
        frameCount es = (min (b.toNat + m.toNat) 126 - b.toNat) * 2) ∧
      (∃ t es n, exec .cycle s = .next t ∧ t.events = s.events ++ es ∧
        n = min (s.cfg.winStart + s.cfg.winCount) 126 - s.cfg.winStart ∧
        totalDelay es = s.cfg.sweepsPerCycle * n * 150 ∧
        frameCount es = s.cfg.sweepsPerCycle * n * 2))

/-- 60_exceptions.md R232: a step issues a bounded number of events, those of at most `65535 * 126`
busy tests, answered or not. -/
def Obligations.EveryStepIssuesBoundedlyManyEvents : Prop :=
  ∀ s t : State, step s = .next t →
    ∃ es, t.events = s.events ++ es ∧ es.length ≤ 3 * (65535 * 126)

/-! ### Whole-machine rules -/

/-- 10_state.md R58: the bring-up invariants hold after reset, for every configuration, and so do the
other invariants stated below. -/
def Obligations.ResetMeetsTheInvariants : Prop :=
  ∀ cfg : Cfg, BringupInv (State.init cfg) ∧ EventsPermitted (State.init cfg) ∧
    ResponseShape (State.init cfg)

/-- 10_state.md R58, R45, R47: every step, from every state that meets them, keeps the bring-up
invariants, whatever the host and the environment do. -/
def Obligations.EveryStepKeepsTheBringupInvariant : Prop :=
  ∀ s t : State, BringupInv s → step s = .next t → BringupInv t

/-- 30_encoding.md R113 (with 60_exceptions.md R225, R226): the trace of every run holds only events
the block may issue; in particular every frame's first byte has bits [7:6] clear. Every step keeps
this. -/
def Obligations.EveryStepIssuesOnlyPermittedEvents : Prop :=
  ∀ s t : State, EventsPermitted s → step s = .next t → EventsPermitted t

/-- 30_encoding.md R105, R106: bits [23:16] of the response word stay 0 and CODE stays one of the six
codes. -/
def Obligations.EveryStepKeepsTheResponseShape : Prop :=
  ∀ s t : State, ResponseShape s → step s = .next t → ResponseShape t

/-- 10_state.md R44: only ATTACH, CONFIGURE and POWER_UP move the bring-up state, each by its own
transition, and no step but a reset lowers it. -/
def Obligations.BringupStateNeverDecreases : Prop :=
  (∀ s t : State, step s = .next t → s.hostIn.head? ≠ some .reset → s.fsm.rank ≤ t.fsm.rank) ∧
  (∀ (i : Instr) (s t : State), exec i s = .next t →
    t.fsm = s.fsm ∨
    (i = .attach ∧ s.fsm = .unattached ∧ t.fsm = .attached ∧ ∃ ref, s.attachAnswer = .ok ref) ∨
    (i = .configure ∧ s.fsm = .attached ∧ t.fsm = .configured) ∨
    (i = .powerUp ∧ s.fsm = .configured ∧ t.fsm = .listening))

/-- 10_state.md R45: `S.devref` is written only by a successful ATTACH and by reset, is None exactly
when UNATTACHED, and every `Xfer` an instruction issues carries it. -/
def Obligations.DeviceReferenceIsWrittenOnlyByAttach : Prop :=
  (∀ (i : Instr) (s t : State), exec i s = .next t →
    (t.devref = s.devref ∨ (i = .attach ∧ s.fsm = .unattached ∧
      ∃ ref, s.attachAnswer = .ok ref ∧ t.devref = some ref)) ∧
    (∃ es, t.events = s.events ++ es ∧
      ∀ r tx0 tx1, Event.xfer r tx0 tx1 ∈ es → s.devref = some r) ∧
    (BringupInv s → (t.devref = none ↔ t.fsm = .unattached))) ∧
  (∀ s t : State, step s = .next t → s.hostIn.head? = some .reset → t.devref = none)

/-- 10_state.md R46: a set failure flag stays set through every step but a reset. -/
def Obligations.FailureFlagsStaySetUntilReset : Prop :=
  ∀ s t : State, step s = .next t → s.hostIn.head? ≠ some .reset →
    (s.attachFail = true → t.attachFail = true) ∧ (s.rdFail = true → t.rdFail = true) ∧
    (s.wrFail = true → t.wrFail = true)

/-- 00_scope.md R11, 10_state.md R40: no step, reset included, writes the configuration; and no step
takes an event or a response back. The trace fields are the model's (log 7). -/
def Obligations.ConfigurationIsNeverWritten : Prop :=
  ∀ s t : State, step s = .next t →
    t.cfg = s.cfg ∧ (∃ es, t.events = s.events ++ es) ∧ ∃ ws, t.responses = s.responses ++ ws

/-- 30_encoding.md R105, 10_state.md R52, R53: a command ends with exactly one response word, or a
call of it is never answered and it stays in progress, busy, with no response. Where every call is
answered it ends. -/
def Obligations.EveryCommandAnswersOnceOrStaysBusy : Prop :=
  ∀ (i : Instr) (s : State), isCommand i = true →
    ∃ t, exec i s = .next t ∧
      (Answered s t t.resp ∨
        (t.busy = true ∧ t.resp = s.resp ∧ t.respWaiting = s.respWaiting ∧
          t.responses = s.responses)) ∧
      (s.Fair → Answered s t t.resp)

/-- 70_reset_and_hazards.md R253: ATTACH, CONFIGURE, POWER_UP, READ_REG, WRITE_REG and BUSY_TEST, where
their first blocking call is never answered, stay in that command: busy, no response, and the call
is the last event. Only ATTACH has then changed something: it has driven the enable line low (R152).
That the call after `n` more is never answered is the field `hangAfter` (log 3). -/
def Obligations.UnansweredCallLeavesTheCommandInProgress : Prop :=
  ∀ (i : Instr) (s : State), alwaysCalls i = true → allowedIn i s.fsm = true → BringupInv s →
    s.hangAfter = some 0 →
    ∃ t, exec i s = .next t ∧ t.busy = true ∧ t.resp = s.resp ∧ t.responses = s.responses ∧
      t.fsm = s.fsm ∧ t.devref = s.devref ∧ t.hit = s.hit ∧
      t.rdFail = s.rdFail ∧ t.wrFail = s.wrFail ∧ t.attachFail = s.attachFail ∧
      t.ce = (if i = .attach then .low else s.ce) ∧
      ((∃ ref tx0 tx1, t.events.getLast? = some (.xfer ref tx0 tx1)) ∨
        ∃ b c h m, t.events.getLast? = some (.attachReq b c h m))

/-- 70_reset_and_hazards.md R253, 10_state.md R53: a busy instance accepts no command and does not
time out: until a reset, a step only uses up the host's move, and the presented commands stay. The port's
fields, and a never-answered call as a busy state, are the model's (logs 3, 4). -/
def Obligations.BusyInstanceStaysBusy : Prop :=
  ∀ s : State, s.cfg.wellFormed = true → s.busy = true → s.hostIn.head? ≠ some .reset →
    step s = .next { s with
      hostIn := s.hostIn.tail
      respWaiting := s.respWaiting && s.hostIn.head? != some .takeResponse }

/-! ### Frames of every byte, and calls that are never answered -/

/-- 30_encoding.md R110 to R113: every pair of bytes is read by the command bits of the first, 000 a
read frame at its address, 001 a write frame of the second byte at its address, any other pattern no
frame. A read frame's second byte decides nothing (log 13). -/
def Obligations.EveryPairOfBytesIsOneFrameOrNone : Prop :=
  ∀ tx0 tx1 : Byte,
    (tx0.extractLsb' 5 3 = 0b000#3 →
      decodeFrame tx0 tx1 = .ok (.rFrame (tx0.extractLsb' 0 5))) ∧
    (tx0.extractLsb' 5 3 = 0b001#3 →
      decodeFrame tx0 tx1 = .ok (.wFrame (tx0.extractLsb' 0 5) tx1)) ∧
    (tx0.extractLsb' 5 3 ≠ 0b000#3 → tx0.extractLsb' 5 3 ≠ 0b001#3 →
      ∃ e, decodeFrame tx0 tx1 = .error e)

/-- 70_reset_and_hazards.md R253, 60_exceptions.md R214: any instruction, SWEEP, CYCLE and the frames
included, beside its run with every call answered, whose state is `u` and whose events are `es`. Where
it makes at most `n` blocking calls, whether one after those hangs changes nothing. Where it makes
more, it stands in its call `n + 1`, a request, a transfer or a delay: busy, no response, its events
the first ones of `es` up to that call, the bring-up state, the reference and the attach flag as they
were, the transfer flags between the old ones and those of `u`, the enable line low for ATTACH alone,
and, but for SWEEP and CYCLE, the hit table as it was. The field `hangAfter` is the model's (log 3). -/
def Obligations.UnansweredCallStopsTheInstructionThere : Prop :=
  ∀ (i : Instr) (s u : State) (n : Nat), exec i s.fairly = .next u →
    ∃ es, u.events = s.events ++ es ∧
      (blockingCalls es ≤ n →
        exec i (s.hangingAfter n) = .next (u.hangingAfter (n - blockingCalls es))) ∧
      (n < blockingCalls es → ∃ t fs, exec i (s.hangingAfter n) = .next t ∧ StandsIn s t ∧
        t.events = s.events ++ fs ∧ fs <+: es ∧ blockingCalls fs = n + 1 ∧
        (∃ e, fs.getLast? = some e ∧ e.blocking = true) ∧
        FlagsKept s t ∧ FlagsKept t u ∧ t.ce = (if i = .attach then .low else s.ce) ∧
        ((∀ b m, i ≠ .sweep b m) → i ≠ .cycle → t.hit = s.hit))

/-- 70_reset_and_hazards.md R253, 42_band_scanner.md R183, R188: a SWEEP or CYCLE one of whose calls is
never answered stands in that call. The first `n / 3` busy tests are done and counted, the next one is
in progress, and no later one has begun; each failure flag is set exactly by the answered frames of
its kind. CYCLE has cleared the table first. The field `hangAfter` is the model's (log 3). -/
def Obligations.UnansweredCallInAScanKeepsTheCountsSoFar : Prop :=
  ∀ (s : State) (ref : DevRef) (n : Nat), s.fsm = .listening → s.devref = some ref →
    s.hangAfter = some n →
    (∀ start count : Byte, n < 3 * (min (start.toNat + count.toNat) 126 - start.toNat) →
      ∃ t, exec (.sweep start count) s = .next t ∧ StandsIn s t ∧ t.ce = s.ce ∧
        t.events = s.events ++ (((List.finRange 126).filter fun c =>
          decide (start.toNat ≤ c.val ∧ c.val < min (start.toNat + count.toNat) 126)).flatMap
            (busyTestEvents s.cfg ref)).take (n + 1) ∧
        t.wrFail = (s.wrFail || (List.range ((n + 2) / 3)).any fun j => (s.nthXfer (2 * j)).isErr) ∧
        t.rdFail = (s.rdFail || (List.range (n / 3)).any fun j => (s.nthXfer (2 * j + 1)).isErr) ∧
        ∀ c : Channel, t.hit[c] =
          if start.toNat ≤ c.val ∧ c.val < start.toNat + n / 3 ∧
              (s.nthXfer (2 * (c.val - start.toNat) + 1)).isBusy = true
          then (if s.hit[c] = 0xFFFF#16 then 0xFFFF#16 else s.hit[c] + 1)
          else s.hit[c]) ∧
    (∀ b e m k, b = s.cfg.winStart → e = min (s.cfg.winStart + s.cfg.winCount) 126 → m = e - b →
      k = s.cfg.sweepsPerCycle → s.cfg.wellFormed = true → n < 3 * (k * m) →
      ∃ t, exec .cycle s = .next t ∧ StandsIn s t ∧ t.ce = s.ce ∧
        t.events = s.events ++ (List.replicate k (((List.finRange 126).filter fun c =>
          decide (b ≤ c.val ∧ c.val < e)).flatMap (busyTestEvents s.cfg ref))).flatten.take (n + 1) ∧
        t.wrFail = (s.wrFail || (List.range ((n + 2) / 3)).any fun j => (s.nthXfer (2 * j)).isErr) ∧
        t.rdFail = (s.rdFail || (List.range (n / 3)).any fun j => (s.nthXfer (2 * j + 1)).isErr) ∧
        ∀ c : Channel, t.hit[c].toNat =
          if b ≤ c.val ∧ c.val < e then
            (List.range k).countP fun j => decide (j * m + (c.val - b) < n / 3) &&
              (s.nthXfer (2 * (j * m + (c.val - b)) + 1)).isBusy
          else 0)
end

