-- ==== Sys2Proof/Laws/Encoding.lean ====
section
/-! SUPPORT. The bits of an encoded form, field by field: what the encoder puts where, and what the
decoder's field readers take from there. -/

namespace Sys2Proof

/-- Which field a bit of a command word comes from (30_encoding.md R100). -/
theorem getLsbD_commandWord (op : BitVec 4) (fa fb fc : Byte) (i : Nat) :
    (commandWord op fa fb fc).getLsbD i =
      if i < 8 then fc.getLsbD i
      else if i < 16 then fb.getLsbD (i - 8)
      else if i < 24 then fa.getLsbD (i - 16)
      else if i < 28 then false
      else op.getLsbD (i - 28) := by
  change BitVec.getLsbD (w := 4 + 4 + 8 + 8 + 8) (op ++ 0#4 ++ fa ++ fb ++ fc) i = _
  simp only [BitVec.getLsbD_append, BitVec.getLsbD_zero, Nat.sub_sub]
  split_ifs <;> first | rfl | omega

/-- Which field a bit of a frame's first byte comes from (R110). -/
theorem getLsbD_frameByte (cmd : BitVec 3) (a : RegAddr) (i : Nat) :
    (frameByte cmd a).getLsbD i = if i < 5 then a.getLsbD i else cmd.getLsbD (i - 5) := by
  change BitVec.getLsbD (w := 3 + 5) (cmd ++ a) i = _
  simp only [BitVec.getLsbD_append]

section
variable (op : BitVec 4) (fa fb fc : Byte)

@[simp] theorem opField_commandWord : opField (commandWord op fa fb fc) = op := by
  refine BitVec.eq_of_getLsbD_eq fun i hi => ?_
  rw [opField, BitVec.getLsbD_extractLsb', getLsbD_commandWord]
  interval_cases i <;> simp

@[simp] theorem rsvField_commandWord : rsvField (commandWord op fa fb fc) = 0 := by
  refine BitVec.eq_of_getLsbD_eq fun i hi => ?_
  rw [rsvField, BitVec.getLsbD_extractLsb', getLsbD_commandWord]
  interval_cases i <;> simp

@[simp] theorem faField_commandWord : faField (commandWord op fa fb fc) = fa := by
  refine BitVec.eq_of_getLsbD_eq fun i hi => ?_
  rw [faField, BitVec.getLsbD_extractLsb', getLsbD_commandWord]
  interval_cases i <;> simp

@[simp] theorem fbField_commandWord : fbField (commandWord op fa fb fc) = fb := by
  refine BitVec.eq_of_getLsbD_eq fun i hi => ?_
  rw [fbField, BitVec.getLsbD_extractLsb', getLsbD_commandWord]
  interval_cases i <;> simp

@[simp] theorem fcField_commandWord : fcField (commandWord op fa fb fc) = fc := by
  refine BitVec.eq_of_getLsbD_eq fun i hi => ?_
  rw [fcField, BitVec.getLsbD_extractLsb', getLsbD_commandWord]
  interval_cases i <;> simp

end

@[simp] theorem frameCmd_frameByte (cmd : BitVec 3) (a : RegAddr) :
    frameCmd (frameByte cmd a) = cmd := by
  refine BitVec.eq_of_getLsbD_eq fun i hi => ?_
  rw [frameCmd, BitVec.getLsbD_extractLsb', getLsbD_frameByte]
  interval_cases i <;> simp

@[simp] theorem frameAddr_frameByte (cmd : BitVec 3) (a : RegAddr) :
    frameAddr (frameByte cmd a) = a := by
  refine BitVec.eq_of_getLsbD_eq fun i hi => ?_
  rw [frameAddr, BitVec.getLsbD_extractLsb', getLsbD_frameByte]
  interval_cases i <;> simp

/-- A word is decoded by its bits [31:24] alone, but for its operands (R100, R103). -/
theorem decodeCommand_of_top {w : Word} {op : BitVec 4} (h : w.extractLsb' 24 8 = op ++ 0#4) :
    decodeCommand w =
      commandOf op (w.extractLsb' 16 8) (w.extractLsb' 8 8) (w.extractLsb' 0 8) := by
  have hb : ∀ i, i < 8 → w.getLsbD (24 + i) = if i < 4 then false else op.getLsbD (i - 4) := by
    intro i hi
    have := congrArg (BitVec.getLsbD · i) h
    rw [BitVec.getLsbD_extractLsb', BitVec.getLsbD_append, BitVec.getLsbD_zero] at this
    simpa only [hi, decide_true, Bool.true_and] using this
  have h1 : rsvField w = 0 := by
    refine BitVec.eq_of_getLsbD_eq fun i hi => ?_
    rw [rsvField, BitVec.getLsbD_extractLsb', hb i (by omega)]
    simp [hi]
  have h2 : opField w = op := by
    refine BitVec.eq_of_getLsbD_eq fun i hi => ?_
    have := hb (i + 4) (by omega)
    rw [opField, BitVec.getLsbD_extractLsb', show 28 + i = 24 + (i + 4) by omega, this]
    simp [hi]
  rw [decodeCommand, if_pos h1, h2]
  rfl

/-- A word whose RSV is not 0 is no command (R108). -/
theorem decodeCommand_of_rsv {w : Word} (h : rsvField w ≠ 0) :
    decodeCommand w = .error .reservedBits := if_neg h

/-- A word whose RSV is 0 is the command of its OP, if there is one (R103). -/
theorem decodeCommand_of_rsv_zero {w : Word} (h : rsvField w = 0) :
    decodeCommand w = commandOf (opField w) (faField w) (fbField w) (fcField w) := if_pos h

end Sys2Proof
end

