-- ==== Sys2Proof/Laws/State.lean ====
section
/-! SUPPORT. One lemma for each field and each update of the state, so that no later proof unfolds a
record update. -/

namespace Sys2Proof.Machine

/-! ### setFsm -/

section
variable (s : State) (f : Fsm)
@[simp] theorem State.setFsm_cfg : (s.setFsm f).cfg = s.cfg := rfl
@[simp] theorem State.setFsm_fsm : (s.setFsm f).fsm = f := rfl
@[simp] theorem State.setFsm_devref : (s.setFsm f).devref = s.devref := rfl
@[simp] theorem State.setFsm_attachFail : (s.setFsm f).attachFail = s.attachFail := rfl
@[simp] theorem State.setFsm_rdFail : (s.setFsm f).rdFail = s.rdFail := rfl
@[simp] theorem State.setFsm_wrFail : (s.setFsm f).wrFail = s.wrFail := rfl
@[simp] theorem State.setFsm_ce : (s.setFsm f).ce = s.ce := rfl
@[simp] theorem State.setFsm_hit : (s.setFsm f).hit = s.hit := rfl
@[simp] theorem State.setFsm_resp : (s.setFsm f).resp = s.resp := rfl
@[simp] theorem State.setFsm_busy : (s.setFsm f).busy = s.busy := rfl
@[simp] theorem State.setFsm_cmdIn : (s.setFsm f).cmdIn = s.cmdIn := rfl
@[simp] theorem State.setFsm_hostIn : (s.setFsm f).hostIn = s.hostIn := rfl
@[simp] theorem State.setFsm_respWaiting : (s.setFsm f).respWaiting = s.respWaiting := rfl
@[simp] theorem State.setFsm_frameIn : (s.setFsm f).frameIn = s.frameIn := rfl
@[simp] theorem State.setFsm_frameOut : (s.setFsm f).frameOut = s.frameOut := rfl
@[simp] theorem State.setFsm_attachIn : (s.setFsm f).attachIn = s.attachIn := rfl
@[simp] theorem State.setFsm_xferIn : (s.setFsm f).xferIn = s.xferIn := rfl
@[simp] theorem State.setFsm_hangAfter : (s.setFsm f).hangAfter = s.hangAfter := rfl
@[simp] theorem State.setFsm_draws : (s.setFsm f).draws = s.draws := rfl
@[simp] theorem State.setFsm_events : (s.setFsm f).events = s.events := rfl
@[simp] theorem State.setFsm_responses : (s.setFsm f).responses = s.responses := rfl
end

/-! ### setDevref -/

section
variable (s : State) (r : DevRef)
@[simp] theorem State.setDevref_cfg : (s.setDevref r).cfg = s.cfg := rfl
@[simp] theorem State.setDevref_fsm : (s.setDevref r).fsm = s.fsm := rfl
@[simp] theorem State.setDevref_devref : (s.setDevref r).devref = some r := rfl
@[simp] theorem State.setDevref_attachFail : (s.setDevref r).attachFail = s.attachFail := rfl
@[simp] theorem State.setDevref_rdFail : (s.setDevref r).rdFail = s.rdFail := rfl
@[simp] theorem State.setDevref_wrFail : (s.setDevref r).wrFail = s.wrFail := rfl
@[simp] theorem State.setDevref_ce : (s.setDevref r).ce = s.ce := rfl
@[simp] theorem State.setDevref_hit : (s.setDevref r).hit = s.hit := rfl
@[simp] theorem State.setDevref_resp : (s.setDevref r).resp = s.resp := rfl
@[simp] theorem State.setDevref_busy : (s.setDevref r).busy = s.busy := rfl
@[simp] theorem State.setDevref_cmdIn : (s.setDevref r).cmdIn = s.cmdIn := rfl
@[simp] theorem State.setDevref_hostIn : (s.setDevref r).hostIn = s.hostIn := rfl
@[simp] theorem State.setDevref_respWaiting : (s.setDevref r).respWaiting = s.respWaiting := rfl
@[simp] theorem State.setDevref_frameIn : (s.setDevref r).frameIn = s.frameIn := rfl
@[simp] theorem State.setDevref_frameOut : (s.setDevref r).frameOut = s.frameOut := rfl
@[simp] theorem State.setDevref_attachIn : (s.setDevref r).attachIn = s.attachIn := rfl
@[simp] theorem State.setDevref_xferIn : (s.setDevref r).xferIn = s.xferIn := rfl
@[simp] theorem State.setDevref_hangAfter : (s.setDevref r).hangAfter = s.hangAfter := rfl
@[simp] theorem State.setDevref_draws : (s.setDevref r).draws = s.draws := rfl
@[simp] theorem State.setDevref_events : (s.setDevref r).events = s.events := rfl
@[simp] theorem State.setDevref_responses : (s.setDevref r).responses = s.responses := rfl
end

/-! ### setCe -/

section
variable (s : State) (l : EnableLevel)
@[simp] theorem State.setCe_cfg : (s.setCe l).cfg = s.cfg := rfl
@[simp] theorem State.setCe_fsm : (s.setCe l).fsm = s.fsm := rfl
@[simp] theorem State.setCe_devref : (s.setCe l).devref = s.devref := rfl
@[simp] theorem State.setCe_attachFail : (s.setCe l).attachFail = s.attachFail := rfl
@[simp] theorem State.setCe_rdFail : (s.setCe l).rdFail = s.rdFail := rfl
@[simp] theorem State.setCe_wrFail : (s.setCe l).wrFail = s.wrFail := rfl
@[simp] theorem State.setCe_ce : (s.setCe l).ce = l := rfl
@[simp] theorem State.setCe_hit : (s.setCe l).hit = s.hit := rfl
@[simp] theorem State.setCe_resp : (s.setCe l).resp = s.resp := rfl
@[simp] theorem State.setCe_busy : (s.setCe l).busy = s.busy := rfl
@[simp] theorem State.setCe_cmdIn : (s.setCe l).cmdIn = s.cmdIn := rfl
@[simp] theorem State.setCe_hostIn : (s.setCe l).hostIn = s.hostIn := rfl
@[simp] theorem State.setCe_respWaiting : (s.setCe l).respWaiting = s.respWaiting := rfl
@[simp] theorem State.setCe_frameIn : (s.setCe l).frameIn = s.frameIn := rfl
@[simp] theorem State.setCe_frameOut : (s.setCe l).frameOut = s.frameOut := rfl
@[simp] theorem State.setCe_attachIn : (s.setCe l).attachIn = s.attachIn := rfl
@[simp] theorem State.setCe_xferIn : (s.setCe l).xferIn = s.xferIn := rfl
@[simp] theorem State.setCe_hangAfter : (s.setCe l).hangAfter = s.hangAfter := rfl
@[simp] theorem State.setCe_draws : (s.setCe l).draws = s.draws := rfl
@[simp] theorem State.setCe_events : (s.setCe l).events = s.events := rfl
@[simp] theorem State.setCe_responses : (s.setCe l).responses = s.responses := rfl
end

/-! ### setFrameOut -/

section
variable (s : State) (o : FrameOut)
@[simp] theorem State.setFrameOut_cfg : (s.setFrameOut o).cfg = s.cfg := rfl
@[simp] theorem State.setFrameOut_fsm : (s.setFrameOut o).fsm = s.fsm := rfl
@[simp] theorem State.setFrameOut_devref : (s.setFrameOut o).devref = s.devref := rfl
@[simp] theorem State.setFrameOut_attachFail : (s.setFrameOut o).attachFail = s.attachFail := rfl
@[simp] theorem State.setFrameOut_rdFail : (s.setFrameOut o).rdFail = s.rdFail := rfl
@[simp] theorem State.setFrameOut_wrFail : (s.setFrameOut o).wrFail = s.wrFail := rfl
@[simp] theorem State.setFrameOut_ce : (s.setFrameOut o).ce = s.ce := rfl
@[simp] theorem State.setFrameOut_hit : (s.setFrameOut o).hit = s.hit := rfl
@[simp] theorem State.setFrameOut_resp : (s.setFrameOut o).resp = s.resp := rfl
@[simp] theorem State.setFrameOut_busy : (s.setFrameOut o).busy = s.busy := rfl
@[simp] theorem State.setFrameOut_cmdIn : (s.setFrameOut o).cmdIn = s.cmdIn := rfl
@[simp] theorem State.setFrameOut_hostIn : (s.setFrameOut o).hostIn = s.hostIn := rfl
@[simp] theorem State.setFrameOut_respWaiting : (s.setFrameOut o).respWaiting = s.respWaiting := rfl
@[simp] theorem State.setFrameOut_frameIn : (s.setFrameOut o).frameIn = s.frameIn := rfl
@[simp] theorem State.setFrameOut_frameOut : (s.setFrameOut o).frameOut = o := rfl
@[simp] theorem State.setFrameOut_attachIn : (s.setFrameOut o).attachIn = s.attachIn := rfl
@[simp] theorem State.setFrameOut_xferIn : (s.setFrameOut o).xferIn = s.xferIn := rfl
@[simp] theorem State.setFrameOut_hangAfter : (s.setFrameOut o).hangAfter = s.hangAfter := rfl
@[simp] theorem State.setFrameOut_draws : (s.setFrameOut o).draws = s.draws := rfl
@[simp] theorem State.setFrameOut_events : (s.setFrameOut o).events = s.events := rfl
@[simp] theorem State.setFrameOut_responses : (s.setFrameOut o).responses = s.responses := rfl
end

/-! ### flagAttachFail -/

section
variable (s : State)
@[simp] theorem State.flagAttachFail_cfg : s.flagAttachFail.cfg = s.cfg := rfl
@[simp] theorem State.flagAttachFail_fsm : s.flagAttachFail.fsm = s.fsm := rfl
@[simp] theorem State.flagAttachFail_devref : s.flagAttachFail.devref = s.devref := rfl
@[simp] theorem State.flagAttachFail_attachFail : s.flagAttachFail.attachFail = true := rfl
@[simp] theorem State.flagAttachFail_rdFail : s.flagAttachFail.rdFail = s.rdFail := rfl
@[simp] theorem State.flagAttachFail_wrFail : s.flagAttachFail.wrFail = s.wrFail := rfl
@[simp] theorem State.flagAttachFail_ce : s.flagAttachFail.ce = s.ce := rfl
@[simp] theorem State.flagAttachFail_hit : s.flagAttachFail.hit = s.hit := rfl
@[simp] theorem State.flagAttachFail_resp : s.flagAttachFail.resp = s.resp := rfl
@[simp] theorem State.flagAttachFail_busy : s.flagAttachFail.busy = s.busy := rfl
@[simp] theorem State.flagAttachFail_cmdIn : s.flagAttachFail.cmdIn = s.cmdIn := rfl
@[simp] theorem State.flagAttachFail_hostIn : s.flagAttachFail.hostIn = s.hostIn := rfl
@[simp] theorem State.flagAttachFail_respWaiting : s.flagAttachFail.respWaiting = s.respWaiting := rfl
@[simp] theorem State.flagAttachFail_frameIn : s.flagAttachFail.frameIn = s.frameIn := rfl
@[simp] theorem State.flagAttachFail_frameOut : s.flagAttachFail.frameOut = s.frameOut := rfl
@[simp] theorem State.flagAttachFail_attachIn : s.flagAttachFail.attachIn = s.attachIn := rfl
@[simp] theorem State.flagAttachFail_xferIn : s.flagAttachFail.xferIn = s.xferIn := rfl
@[simp] theorem State.flagAttachFail_hangAfter : s.flagAttachFail.hangAfter = s.hangAfter := rfl
@[simp] theorem State.flagAttachFail_draws : s.flagAttachFail.draws = s.draws := rfl
@[simp] theorem State.flagAttachFail_events : s.flagAttachFail.events = s.events := rfl
@[simp] theorem State.flagAttachFail_responses : s.flagAttachFail.responses = s.responses := rfl
end

/-! ### flagRdFail -/

section
variable (s : State)
@[simp] theorem State.flagRdFail_cfg : s.flagRdFail.cfg = s.cfg := rfl
@[simp] theorem State.flagRdFail_fsm : s.flagRdFail.fsm = s.fsm := rfl
@[simp] theorem State.flagRdFail_devref : s.flagRdFail.devref = s.devref := rfl
@[simp] theorem State.flagRdFail_attachFail : s.flagRdFail.attachFail = s.attachFail := rfl
@[simp] theorem State.flagRdFail_rdFail : s.flagRdFail.rdFail = true := rfl
@[simp] theorem State.flagRdFail_wrFail : s.flagRdFail.wrFail = s.wrFail := rfl
@[simp] theorem State.flagRdFail_ce : s.flagRdFail.ce = s.ce := rfl
@[simp] theorem State.flagRdFail_hit : s.flagRdFail.hit = s.hit := rfl
@[simp] theorem State.flagRdFail_resp : s.flagRdFail.resp = s.resp := rfl
@[simp] theorem State.flagRdFail_busy : s.flagRdFail.busy = s.busy := rfl
@[simp] theorem State.flagRdFail_cmdIn : s.flagRdFail.cmdIn = s.cmdIn := rfl
@[simp] theorem State.flagRdFail_hostIn : s.flagRdFail.hostIn = s.hostIn := rfl
@[simp] theorem State.flagRdFail_respWaiting : s.flagRdFail.respWaiting = s.respWaiting := rfl
@[simp] theorem State.flagRdFail_frameIn : s.flagRdFail.frameIn = s.frameIn := rfl
@[simp] theorem State.flagRdFail_frameOut : s.flagRdFail.frameOut = s.frameOut := rfl
@[simp] theorem State.flagRdFail_attachIn : s.flagRdFail.attachIn = s.attachIn := rfl
@[simp] theorem State.flagRdFail_xferIn : s.flagRdFail.xferIn = s.xferIn := rfl
@[simp] theorem State.flagRdFail_hangAfter : s.flagRdFail.hangAfter = s.hangAfter := rfl
@[simp] theorem State.flagRdFail_draws : s.flagRdFail.draws = s.draws := rfl
@[simp] theorem State.flagRdFail_events : s.flagRdFail.events = s.events := rfl
@[simp] theorem State.flagRdFail_responses : s.flagRdFail.responses = s.responses := rfl
end

/-! ### flagWrFail -/

section
variable (s : State)
@[simp] theorem State.flagWrFail_cfg : s.flagWrFail.cfg = s.cfg := rfl
@[simp] theorem State.flagWrFail_fsm : s.flagWrFail.fsm = s.fsm := rfl
@[simp] theorem State.flagWrFail_devref : s.flagWrFail.devref = s.devref := rfl
@[simp] theorem State.flagWrFail_attachFail : s.flagWrFail.attachFail = s.attachFail := rfl
@[simp] theorem State.flagWrFail_rdFail : s.flagWrFail.rdFail = s.rdFail := rfl
@[simp] theorem State.flagWrFail_wrFail : s.flagWrFail.wrFail = true := rfl
@[simp] theorem State.flagWrFail_ce : s.flagWrFail.ce = s.ce := rfl
@[simp] theorem State.flagWrFail_hit : s.flagWrFail.hit = s.hit := rfl
@[simp] theorem State.flagWrFail_resp : s.flagWrFail.resp = s.resp := rfl
@[simp] theorem State.flagWrFail_busy : s.flagWrFail.busy = s.busy := rfl
@[simp] theorem State.flagWrFail_cmdIn : s.flagWrFail.cmdIn = s.cmdIn := rfl
@[simp] theorem State.flagWrFail_hostIn : s.flagWrFail.hostIn = s.hostIn := rfl
@[simp] theorem State.flagWrFail_respWaiting : s.flagWrFail.respWaiting = s.respWaiting := rfl
@[simp] theorem State.flagWrFail_frameIn : s.flagWrFail.frameIn = s.frameIn := rfl
@[simp] theorem State.flagWrFail_frameOut : s.flagWrFail.frameOut = s.frameOut := rfl
@[simp] theorem State.flagWrFail_attachIn : s.flagWrFail.attachIn = s.attachIn := rfl
@[simp] theorem State.flagWrFail_xferIn : s.flagWrFail.xferIn = s.xferIn := rfl
@[simp] theorem State.flagWrFail_hangAfter : s.flagWrFail.hangAfter = s.hangAfter := rfl
@[simp] theorem State.flagWrFail_draws : s.flagWrFail.draws = s.draws := rfl
@[simp] theorem State.flagWrFail_events : s.flagWrFail.events = s.events := rfl
@[simp] theorem State.flagWrFail_responses : s.flagWrFail.responses = s.responses := rfl
end

/-! ### writeHit -/

section
variable (s : State) (c : Channel) (v : Half)
@[simp] theorem State.writeHit_cfg : (s.writeHit c v).cfg = s.cfg := rfl
@[simp] theorem State.writeHit_fsm : (s.writeHit c v).fsm = s.fsm := rfl
@[simp] theorem State.writeHit_devref : (s.writeHit c v).devref = s.devref := rfl
@[simp] theorem State.writeHit_attachFail : (s.writeHit c v).attachFail = s.attachFail := rfl
@[simp] theorem State.writeHit_rdFail : (s.writeHit c v).rdFail = s.rdFail := rfl
@[simp] theorem State.writeHit_wrFail : (s.writeHit c v).wrFail = s.wrFail := rfl
@[simp] theorem State.writeHit_ce : (s.writeHit c v).ce = s.ce := rfl
@[simp] theorem State.writeHit_hit : (s.writeHit c v).hit = s.hit.set c v := rfl
@[simp] theorem State.writeHit_resp : (s.writeHit c v).resp = s.resp := rfl
@[simp] theorem State.writeHit_busy : (s.writeHit c v).busy = s.busy := rfl
@[simp] theorem State.writeHit_cmdIn : (s.writeHit c v).cmdIn = s.cmdIn := rfl
@[simp] theorem State.writeHit_hostIn : (s.writeHit c v).hostIn = s.hostIn := rfl
@[simp] theorem State.writeHit_respWaiting : (s.writeHit c v).respWaiting = s.respWaiting := rfl
@[simp] theorem State.writeHit_frameIn : (s.writeHit c v).frameIn = s.frameIn := rfl
@[simp] theorem State.writeHit_frameOut : (s.writeHit c v).frameOut = s.frameOut := rfl
@[simp] theorem State.writeHit_attachIn : (s.writeHit c v).attachIn = s.attachIn := rfl
@[simp] theorem State.writeHit_xferIn : (s.writeHit c v).xferIn = s.xferIn := rfl
@[simp] theorem State.writeHit_hangAfter : (s.writeHit c v).hangAfter = s.hangAfter := rfl
@[simp] theorem State.writeHit_draws : (s.writeHit c v).draws = s.draws := rfl
@[simp] theorem State.writeHit_events : (s.writeHit c v).events = s.events := rfl
@[simp] theorem State.writeHit_responses : (s.writeHit c v).responses = s.responses := rfl
end

/-! ### clearHits -/

section
variable (s : State)
@[simp] theorem State.clearHits_cfg : s.clearHits.cfg = s.cfg := rfl
@[simp] theorem State.clearHits_fsm : s.clearHits.fsm = s.fsm := rfl
@[simp] theorem State.clearHits_devref : s.clearHits.devref = s.devref := rfl
@[simp] theorem State.clearHits_attachFail : s.clearHits.attachFail = s.attachFail := rfl
@[simp] theorem State.clearHits_rdFail : s.clearHits.rdFail = s.rdFail := rfl
@[simp] theorem State.clearHits_wrFail : s.clearHits.wrFail = s.wrFail := rfl
@[simp] theorem State.clearHits_ce : s.clearHits.ce = s.ce := rfl
@[simp] theorem State.clearHits_hit : s.clearHits.hit = Vector.replicate 126 0 := rfl
@[simp] theorem State.clearHits_resp : s.clearHits.resp = s.resp := rfl
@[simp] theorem State.clearHits_busy : s.clearHits.busy = s.busy := rfl
@[simp] theorem State.clearHits_cmdIn : s.clearHits.cmdIn = s.cmdIn := rfl
@[simp] theorem State.clearHits_hostIn : s.clearHits.hostIn = s.hostIn := rfl
@[simp] theorem State.clearHits_respWaiting : s.clearHits.respWaiting = s.respWaiting := rfl
@[simp] theorem State.clearHits_frameIn : s.clearHits.frameIn = s.frameIn := rfl
@[simp] theorem State.clearHits_frameOut : s.clearHits.frameOut = s.frameOut := rfl
@[simp] theorem State.clearHits_attachIn : s.clearHits.attachIn = s.attachIn := rfl
@[simp] theorem State.clearHits_xferIn : s.clearHits.xferIn = s.xferIn := rfl
@[simp] theorem State.clearHits_hangAfter : s.clearHits.hangAfter = s.hangAfter := rfl
@[simp] theorem State.clearHits_draws : s.clearHits.draws = s.draws := rfl
@[simp] theorem State.clearHits_events : s.clearHits.events = s.events := rfl
@[simp] theorem State.clearHits_responses : s.clearHits.responses = s.responses := rfl
end

/-! ### emit -/

section
variable (s : State) (e : Event)
@[simp] theorem State.emit_cfg : (s.emit e).cfg = s.cfg := rfl
@[simp] theorem State.emit_fsm : (s.emit e).fsm = s.fsm := rfl
@[simp] theorem State.emit_devref : (s.emit e).devref = s.devref := rfl
@[simp] theorem State.emit_attachFail : (s.emit e).attachFail = s.attachFail := rfl
@[simp] theorem State.emit_rdFail : (s.emit e).rdFail = s.rdFail := rfl
@[simp] theorem State.emit_wrFail : (s.emit e).wrFail = s.wrFail := rfl
@[simp] theorem State.emit_ce : (s.emit e).ce = s.ce := rfl
@[simp] theorem State.emit_hit : (s.emit e).hit = s.hit := rfl
@[simp] theorem State.emit_resp : (s.emit e).resp = s.resp := rfl
@[simp] theorem State.emit_busy : (s.emit e).busy = s.busy := rfl
@[simp] theorem State.emit_cmdIn : (s.emit e).cmdIn = s.cmdIn := rfl
@[simp] theorem State.emit_hostIn : (s.emit e).hostIn = s.hostIn := rfl
@[simp] theorem State.emit_respWaiting : (s.emit e).respWaiting = s.respWaiting := rfl
@[simp] theorem State.emit_frameIn : (s.emit e).frameIn = s.frameIn := rfl
@[simp] theorem State.emit_frameOut : (s.emit e).frameOut = s.frameOut := rfl
@[simp] theorem State.emit_attachIn : (s.emit e).attachIn = s.attachIn := rfl
@[simp] theorem State.emit_xferIn : (s.emit e).xferIn = s.xferIn := rfl
@[simp] theorem State.emit_hangAfter : (s.emit e).hangAfter = s.hangAfter := rfl
@[simp] theorem State.emit_draws : (s.emit e).draws = s.draws := rfl
@[simp] theorem State.emit_events : (s.emit e).events = s.events ++ [e] := rfl
@[simp] theorem State.emit_responses : (s.emit e).responses = s.responses := rfl
end

/-! ### popAttach -/

section
variable (s : State)
@[simp] theorem State.popAttach_cfg : s.popAttach.cfg = s.cfg := rfl
@[simp] theorem State.popAttach_fsm : s.popAttach.fsm = s.fsm := rfl
@[simp] theorem State.popAttach_devref : s.popAttach.devref = s.devref := rfl
@[simp] theorem State.popAttach_attachFail : s.popAttach.attachFail = s.attachFail := rfl
@[simp] theorem State.popAttach_rdFail : s.popAttach.rdFail = s.rdFail := rfl
@[simp] theorem State.popAttach_wrFail : s.popAttach.wrFail = s.wrFail := rfl
@[simp] theorem State.popAttach_ce : s.popAttach.ce = s.ce := rfl
@[simp] theorem State.popAttach_hit : s.popAttach.hit = s.hit := rfl
@[simp] theorem State.popAttach_resp : s.popAttach.resp = s.resp := rfl
@[simp] theorem State.popAttach_busy : s.popAttach.busy = s.busy := rfl
@[simp] theorem State.popAttach_cmdIn : s.popAttach.cmdIn = s.cmdIn := rfl
@[simp] theorem State.popAttach_hostIn : s.popAttach.hostIn = s.hostIn := rfl
@[simp] theorem State.popAttach_respWaiting : s.popAttach.respWaiting = s.respWaiting := rfl
@[simp] theorem State.popAttach_frameIn : s.popAttach.frameIn = s.frameIn := rfl
@[simp] theorem State.popAttach_frameOut : s.popAttach.frameOut = s.frameOut := rfl
@[simp] theorem State.popAttach_attachIn : s.popAttach.attachIn = s.attachIn.tail := rfl
@[simp] theorem State.popAttach_xferIn : s.popAttach.xferIn = s.xferIn := rfl
@[simp] theorem State.popAttach_hangAfter : s.popAttach.hangAfter = s.hangAfter := rfl
@[simp] theorem State.popAttach_draws : s.popAttach.draws = (if s.attachIn.isEmpty then s.draws + 1 else s.draws) := rfl
@[simp] theorem State.popAttach_events : s.popAttach.events = s.events := rfl
@[simp] theorem State.popAttach_responses : s.popAttach.responses = s.responses := rfl
end

/-! ### popXfer -/

section
variable (s : State)
@[simp] theorem State.popXfer_cfg : s.popXfer.cfg = s.cfg := rfl
@[simp] theorem State.popXfer_fsm : s.popXfer.fsm = s.fsm := rfl
@[simp] theorem State.popXfer_devref : s.popXfer.devref = s.devref := rfl
@[simp] theorem State.popXfer_attachFail : s.popXfer.attachFail = s.attachFail := rfl
@[simp] theorem State.popXfer_rdFail : s.popXfer.rdFail = s.rdFail := rfl
@[simp] theorem State.popXfer_wrFail : s.popXfer.wrFail = s.wrFail := rfl
@[simp] theorem State.popXfer_ce : s.popXfer.ce = s.ce := rfl
@[simp] theorem State.popXfer_hit : s.popXfer.hit = s.hit := rfl
@[simp] theorem State.popXfer_resp : s.popXfer.resp = s.resp := rfl
@[simp] theorem State.popXfer_busy : s.popXfer.busy = s.busy := rfl
@[simp] theorem State.popXfer_cmdIn : s.popXfer.cmdIn = s.cmdIn := rfl
@[simp] theorem State.popXfer_hostIn : s.popXfer.hostIn = s.hostIn := rfl
@[simp] theorem State.popXfer_respWaiting : s.popXfer.respWaiting = s.respWaiting := rfl
@[simp] theorem State.popXfer_frameIn : s.popXfer.frameIn = s.frameIn := rfl
@[simp] theorem State.popXfer_frameOut : s.popXfer.frameOut = s.frameOut := rfl
@[simp] theorem State.popXfer_attachIn : s.popXfer.attachIn = s.attachIn := rfl
@[simp] theorem State.popXfer_xferIn : s.popXfer.xferIn = s.xferIn.tail := rfl
@[simp] theorem State.popXfer_hangAfter : s.popXfer.hangAfter = s.hangAfter := rfl
@[simp] theorem State.popXfer_draws : s.popXfer.draws = (if s.xferIn.isEmpty then s.draws + 1 else s.draws) := rfl
@[simp] theorem State.popXfer_events : s.popXfer.events = s.events := rfl
@[simp] theorem State.popXfer_responses : s.popXfer.responses = s.responses := rfl
end

/-! ### answered -/

section
variable (s : State)
@[simp] theorem State.answered_cfg : s.answered.cfg = s.cfg := rfl
@[simp] theorem State.answered_fsm : s.answered.fsm = s.fsm := rfl
@[simp] theorem State.answered_devref : s.answered.devref = s.devref := rfl
@[simp] theorem State.answered_attachFail : s.answered.attachFail = s.attachFail := rfl
@[simp] theorem State.answered_rdFail : s.answered.rdFail = s.rdFail := rfl
@[simp] theorem State.answered_wrFail : s.answered.wrFail = s.wrFail := rfl
@[simp] theorem State.answered_ce : s.answered.ce = s.ce := rfl
@[simp] theorem State.answered_hit : s.answered.hit = s.hit := rfl
@[simp] theorem State.answered_resp : s.answered.resp = s.resp := rfl
@[simp] theorem State.answered_busy : s.answered.busy = s.busy := rfl
@[simp] theorem State.answered_cmdIn : s.answered.cmdIn = s.cmdIn := rfl
@[simp] theorem State.answered_hostIn : s.answered.hostIn = s.hostIn := rfl
@[simp] theorem State.answered_respWaiting : s.answered.respWaiting = s.respWaiting := rfl
@[simp] theorem State.answered_frameIn : s.answered.frameIn = s.frameIn := rfl
@[simp] theorem State.answered_frameOut : s.answered.frameOut = s.frameOut := rfl
@[simp] theorem State.answered_attachIn : s.answered.attachIn = s.attachIn := rfl
@[simp] theorem State.answered_xferIn : s.answered.xferIn = s.xferIn := rfl
@[simp] theorem State.answered_hangAfter : s.answered.hangAfter = s.hangAfter.map (· - 1) := rfl
@[simp] theorem State.answered_draws : s.answered.draws = s.draws := rfl
@[simp] theorem State.answered_events : s.answered.events = s.events := rfl
@[simp] theorem State.answered_responses : s.answered.responses = s.responses := rfl
end

/-! ### stuck -/

section
variable (s : State)
@[simp] theorem State.stuck_cfg : s.stuck.cfg = s.cfg := rfl
@[simp] theorem State.stuck_fsm : s.stuck.fsm = s.fsm := rfl
@[simp] theorem State.stuck_devref : s.stuck.devref = s.devref := rfl
@[simp] theorem State.stuck_attachFail : s.stuck.attachFail = s.attachFail := rfl
@[simp] theorem State.stuck_rdFail : s.stuck.rdFail = s.rdFail := rfl
@[simp] theorem State.stuck_wrFail : s.stuck.wrFail = s.wrFail := rfl
@[simp] theorem State.stuck_ce : s.stuck.ce = s.ce := rfl
@[simp] theorem State.stuck_hit : s.stuck.hit = s.hit := rfl
@[simp] theorem State.stuck_resp : s.stuck.resp = s.resp := rfl
@[simp] theorem State.stuck_busy : s.stuck.busy = true := rfl
@[simp] theorem State.stuck_cmdIn : s.stuck.cmdIn = s.cmdIn := rfl
@[simp] theorem State.stuck_hostIn : s.stuck.hostIn = s.hostIn := rfl
@[simp] theorem State.stuck_respWaiting : s.stuck.respWaiting = s.respWaiting := rfl
@[simp] theorem State.stuck_frameIn : s.stuck.frameIn = s.frameIn := rfl
@[simp] theorem State.stuck_frameOut : s.stuck.frameOut = s.frameOut := rfl
@[simp] theorem State.stuck_attachIn : s.stuck.attachIn = s.attachIn := rfl
@[simp] theorem State.stuck_xferIn : s.stuck.xferIn = s.xferIn := rfl
@[simp] theorem State.stuck_hangAfter : s.stuck.hangAfter = none := rfl
@[simp] theorem State.stuck_draws : s.stuck.draws = s.draws := rfl
@[simp] theorem State.stuck_events : s.stuck.events = s.events := rfl
@[simp] theorem State.stuck_responses : s.stuck.responses = s.responses := rfl
end

/-! ### respond -/

section
variable (s : State) (k : Code) (d : Half)
@[simp] theorem State.respond_cfg : (s.respond k d).cfg = s.cfg := rfl
@[simp] theorem State.respond_fsm : (s.respond k d).fsm = s.fsm := rfl
@[simp] theorem State.respond_devref : (s.respond k d).devref = s.devref := rfl
@[simp] theorem State.respond_attachFail : (s.respond k d).attachFail = s.attachFail := rfl
@[simp] theorem State.respond_rdFail : (s.respond k d).rdFail = s.rdFail := rfl
@[simp] theorem State.respond_wrFail : (s.respond k d).wrFail = s.wrFail := rfl
@[simp] theorem State.respond_ce : (s.respond k d).ce = s.ce := rfl
@[simp] theorem State.respond_hit : (s.respond k d).hit = s.hit := rfl
@[simp] theorem State.respond_resp : (s.respond k d).resp = responseWord k d := rfl
@[simp] theorem State.respond_busy : (s.respond k d).busy = false := rfl
@[simp] theorem State.respond_cmdIn : (s.respond k d).cmdIn = s.cmdIn := rfl
@[simp] theorem State.respond_hostIn : (s.respond k d).hostIn = s.hostIn := rfl
@[simp] theorem State.respond_respWaiting : (s.respond k d).respWaiting = true := rfl
@[simp] theorem State.respond_frameIn : (s.respond k d).frameIn = s.frameIn := rfl
@[simp] theorem State.respond_frameOut : (s.respond k d).frameOut = s.frameOut := rfl
@[simp] theorem State.respond_attachIn : (s.respond k d).attachIn = s.attachIn := rfl
@[simp] theorem State.respond_xferIn : (s.respond k d).xferIn = s.xferIn := rfl
@[simp] theorem State.respond_hangAfter : (s.respond k d).hangAfter = s.hangAfter := rfl
@[simp] theorem State.respond_draws : (s.respond k d).draws = s.draws := rfl
@[simp] theorem State.respond_events : (s.respond k d).events = s.events := rfl
@[simp] theorem State.respond_responses : (s.respond k d).responses = s.responses ++ [responseWord k d] := rfl
end

/-! ### hostMoved -/

section
variable (s : State)
@[simp] theorem State.hostMoved_cfg : s.hostMoved.cfg = s.cfg := rfl
@[simp] theorem State.hostMoved_fsm : s.hostMoved.fsm = s.fsm := rfl
@[simp] theorem State.hostMoved_devref : s.hostMoved.devref = s.devref := rfl
@[simp] theorem State.hostMoved_attachFail : s.hostMoved.attachFail = s.attachFail := rfl
@[simp] theorem State.hostMoved_rdFail : s.hostMoved.rdFail = s.rdFail := rfl
@[simp] theorem State.hostMoved_wrFail : s.hostMoved.wrFail = s.wrFail := rfl
@[simp] theorem State.hostMoved_ce : s.hostMoved.ce = s.ce := rfl
@[simp] theorem State.hostMoved_hit : s.hostMoved.hit = s.hit := rfl
@[simp] theorem State.hostMoved_resp : s.hostMoved.resp = s.resp := rfl
@[simp] theorem State.hostMoved_busy : s.hostMoved.busy = s.busy := rfl
@[simp] theorem State.hostMoved_cmdIn : s.hostMoved.cmdIn = s.cmdIn := rfl
@[simp] theorem State.hostMoved_hostIn : s.hostMoved.hostIn = s.hostIn.tail := rfl
@[simp] theorem State.hostMoved_respWaiting : s.hostMoved.respWaiting = (s.respWaiting && s.hostIn.head? != some .takeResponse) := rfl
@[simp] theorem State.hostMoved_frameIn : s.hostMoved.frameIn = s.frameIn := rfl
@[simp] theorem State.hostMoved_frameOut : s.hostMoved.frameOut = s.frameOut := rfl
@[simp] theorem State.hostMoved_attachIn : s.hostMoved.attachIn = s.attachIn := rfl
@[simp] theorem State.hostMoved_xferIn : s.hostMoved.xferIn = s.xferIn := rfl
@[simp] theorem State.hostMoved_hangAfter : s.hostMoved.hangAfter = s.hangAfter := rfl
@[simp] theorem State.hostMoved_draws : s.hostMoved.draws = s.draws := rfl
@[simp] theorem State.hostMoved_events : s.hostMoved.events = s.events := rfl
@[simp] theorem State.hostMoved_responses : s.hostMoved.responses = s.responses := rfl
end

/-! ### accept -/

section
variable (s : State)
@[simp] theorem State.accept_cfg : s.accept.cfg = s.cfg := rfl
@[simp] theorem State.accept_fsm : s.accept.fsm = s.fsm := rfl
@[simp] theorem State.accept_devref : s.accept.devref = s.devref := rfl
@[simp] theorem State.accept_attachFail : s.accept.attachFail = s.attachFail := rfl
@[simp] theorem State.accept_rdFail : s.accept.rdFail = s.rdFail := rfl
@[simp] theorem State.accept_wrFail : s.accept.wrFail = s.wrFail := rfl
@[simp] theorem State.accept_ce : s.accept.ce = s.ce := rfl
@[simp] theorem State.accept_hit : s.accept.hit = s.hit := rfl
@[simp] theorem State.accept_resp : s.accept.resp = s.resp := rfl
@[simp] theorem State.accept_busy : s.accept.busy = s.busy := rfl
@[simp] theorem State.accept_cmdIn : s.accept.cmdIn = s.cmdIn.tail := rfl
@[simp] theorem State.accept_hostIn : s.accept.hostIn = s.hostIn := rfl
@[simp] theorem State.accept_respWaiting : s.accept.respWaiting = s.respWaiting := rfl
@[simp] theorem State.accept_frameIn : s.accept.frameIn = s.frameIn := rfl
@[simp] theorem State.accept_frameOut : s.accept.frameOut = s.frameOut := rfl
@[simp] theorem State.accept_attachIn : s.accept.attachIn = s.attachIn := rfl
@[simp] theorem State.accept_xferIn : s.accept.xferIn = s.xferIn := rfl
@[simp] theorem State.accept_hangAfter : s.accept.hangAfter = s.hangAfter := rfl
@[simp] theorem State.accept_draws : s.accept.draws = s.draws := rfl
@[simp] theorem State.accept_events : s.accept.events = s.events := rfl
@[simp] theorem State.accept_responses : s.accept.responses = s.responses := rfl
end

/-! ### takeFrame -/

section
variable (s : State)
@[simp] theorem State.takeFrame_cfg : s.takeFrame.cfg = s.cfg := rfl
@[simp] theorem State.takeFrame_fsm : s.takeFrame.fsm = s.fsm := rfl
@[simp] theorem State.takeFrame_devref : s.takeFrame.devref = s.devref := rfl
@[simp] theorem State.takeFrame_attachFail : s.takeFrame.attachFail = s.attachFail := rfl
@[simp] theorem State.takeFrame_rdFail : s.takeFrame.rdFail = s.rdFail := rfl
@[simp] theorem State.takeFrame_wrFail : s.takeFrame.wrFail = s.wrFail := rfl
@[simp] theorem State.takeFrame_ce : s.takeFrame.ce = s.ce := rfl
@[simp] theorem State.takeFrame_hit : s.takeFrame.hit = s.hit := rfl
@[simp] theorem State.takeFrame_resp : s.takeFrame.resp = s.resp := rfl
@[simp] theorem State.takeFrame_busy : s.takeFrame.busy = s.busy := rfl
@[simp] theorem State.takeFrame_cmdIn : s.takeFrame.cmdIn = s.cmdIn := rfl
@[simp] theorem State.takeFrame_hostIn : s.takeFrame.hostIn = s.hostIn := rfl
@[simp] theorem State.takeFrame_respWaiting : s.takeFrame.respWaiting = s.respWaiting := rfl
@[simp] theorem State.takeFrame_frameIn : s.takeFrame.frameIn = none := rfl
@[simp] theorem State.takeFrame_frameOut : s.takeFrame.frameOut = s.frameOut := rfl
@[simp] theorem State.takeFrame_attachIn : s.takeFrame.attachIn = s.attachIn := rfl
@[simp] theorem State.takeFrame_xferIn : s.takeFrame.xferIn = s.xferIn := rfl
@[simp] theorem State.takeFrame_hangAfter : s.takeFrame.hangAfter = s.hangAfter := rfl
@[simp] theorem State.takeFrame_draws : s.takeFrame.draws = s.draws := rfl
@[simp] theorem State.takeFrame_events : s.takeFrame.events = s.events := rfl
@[simp] theorem State.takeFrame_responses : s.takeFrame.responses = s.responses := rfl
end

/-! ### driveLow -/

section
variable (s : State)
@[simp] theorem driveLow_cfg : (driveLow s).cfg = s.cfg := rfl
@[simp] theorem driveLow_fsm : (driveLow s).fsm = s.fsm := rfl
@[simp] theorem driveLow_devref : (driveLow s).devref = s.devref := rfl
@[simp] theorem driveLow_attachFail : (driveLow s).attachFail = s.attachFail := rfl
@[simp] theorem driveLow_rdFail : (driveLow s).rdFail = s.rdFail := rfl
@[simp] theorem driveLow_wrFail : (driveLow s).wrFail = s.wrFail := rfl
@[simp] theorem driveLow_ce : (driveLow s).ce = .low := rfl
@[simp] theorem driveLow_hit : (driveLow s).hit = s.hit := rfl
@[simp] theorem driveLow_resp : (driveLow s).resp = s.resp := rfl
@[simp] theorem driveLow_busy : (driveLow s).busy = s.busy := rfl
@[simp] theorem driveLow_cmdIn : (driveLow s).cmdIn = s.cmdIn := rfl
@[simp] theorem driveLow_hostIn : (driveLow s).hostIn = s.hostIn := rfl
@[simp] theorem driveLow_respWaiting : (driveLow s).respWaiting = s.respWaiting := rfl
@[simp] theorem driveLow_frameIn : (driveLow s).frameIn = s.frameIn := rfl
@[simp] theorem driveLow_frameOut : (driveLow s).frameOut = s.frameOut := rfl
@[simp] theorem driveLow_attachIn : (driveLow s).attachIn = s.attachIn := rfl
@[simp] theorem driveLow_xferIn : (driveLow s).xferIn = s.xferIn := rfl
@[simp] theorem driveLow_hangAfter : (driveLow s).hangAfter = s.hangAfter := rfl
@[simp] theorem driveLow_draws : (driveLow s).draws = s.draws := rfl
@[simp] theorem driveLow_events : (driveLow s).events = s.events ++ [.gpioLevel s.cfg.enLine .low] := rfl
@[simp] theorem driveLow_responses : (driveLow s).responses = s.responses := rfl
end

/-! ### driveHigh -/

section
variable (s : State)
@[simp] theorem driveHigh_cfg : (driveHigh s).cfg = s.cfg := rfl
@[simp] theorem driveHigh_fsm : (driveHigh s).fsm = s.fsm := rfl
@[simp] theorem driveHigh_devref : (driveHigh s).devref = s.devref := rfl
@[simp] theorem driveHigh_attachFail : (driveHigh s).attachFail = s.attachFail := rfl
@[simp] theorem driveHigh_rdFail : (driveHigh s).rdFail = s.rdFail := rfl
@[simp] theorem driveHigh_wrFail : (driveHigh s).wrFail = s.wrFail := rfl
@[simp] theorem driveHigh_ce : (driveHigh s).ce = .high := rfl
@[simp] theorem driveHigh_hit : (driveHigh s).hit = s.hit := rfl
@[simp] theorem driveHigh_resp : (driveHigh s).resp = s.resp := rfl
@[simp] theorem driveHigh_busy : (driveHigh s).busy = s.busy := rfl
@[simp] theorem driveHigh_cmdIn : (driveHigh s).cmdIn = s.cmdIn := rfl
@[simp] theorem driveHigh_hostIn : (driveHigh s).hostIn = s.hostIn := rfl
@[simp] theorem driveHigh_respWaiting : (driveHigh s).respWaiting = s.respWaiting := rfl
@[simp] theorem driveHigh_frameIn : (driveHigh s).frameIn = s.frameIn := rfl
@[simp] theorem driveHigh_frameOut : (driveHigh s).frameOut = s.frameOut := rfl
@[simp] theorem driveHigh_attachIn : (driveHigh s).attachIn = s.attachIn := rfl
@[simp] theorem driveHigh_xferIn : (driveHigh s).xferIn = s.xferIn := rfl
@[simp] theorem driveHigh_hangAfter : (driveHigh s).hangAfter = s.hangAfter := rfl
@[simp] theorem driveHigh_draws : (driveHigh s).draws = s.draws := rfl
@[simp] theorem driveHigh_events : (driveHigh s).events = s.events ++ [.gpioLevel s.cfg.enLine .high] := rfl
@[simp] theorem driveHigh_responses : (driveHigh s).responses = s.responses := rfl
end

/-! ### driveOutput -/

section
variable (s : State)
@[simp] theorem driveOutput_cfg : (driveOutput s).cfg = s.cfg := rfl
@[simp] theorem driveOutput_fsm : (driveOutput s).fsm = s.fsm := rfl
@[simp] theorem driveOutput_devref : (driveOutput s).devref = s.devref := rfl
@[simp] theorem driveOutput_attachFail : (driveOutput s).attachFail = s.attachFail := rfl
@[simp] theorem driveOutput_rdFail : (driveOutput s).rdFail = s.rdFail := rfl
@[simp] theorem driveOutput_wrFail : (driveOutput s).wrFail = s.wrFail := rfl
@[simp] theorem driveOutput_ce : (driveOutput s).ce = s.ce := rfl
@[simp] theorem driveOutput_hit : (driveOutput s).hit = s.hit := rfl
@[simp] theorem driveOutput_resp : (driveOutput s).resp = s.resp := rfl
@[simp] theorem driveOutput_busy : (driveOutput s).busy = s.busy := rfl
@[simp] theorem driveOutput_cmdIn : (driveOutput s).cmdIn = s.cmdIn := rfl
@[simp] theorem driveOutput_hostIn : (driveOutput s).hostIn = s.hostIn := rfl
@[simp] theorem driveOutput_respWaiting : (driveOutput s).respWaiting = s.respWaiting := rfl
@[simp] theorem driveOutput_frameIn : (driveOutput s).frameIn = s.frameIn := rfl
@[simp] theorem driveOutput_frameOut : (driveOutput s).frameOut = s.frameOut := rfl
@[simp] theorem driveOutput_attachIn : (driveOutput s).attachIn = s.attachIn := rfl
@[simp] theorem driveOutput_xferIn : (driveOutput s).xferIn = s.xferIn := rfl
@[simp] theorem driveOutput_hangAfter : (driveOutput s).hangAfter = s.hangAfter := rfl
@[simp] theorem driveOutput_draws : (driveOutput s).draws = s.draws := rfl
@[simp] theorem driveOutput_events : (driveOutput s).events = s.events ++ [.gpioMode s.cfg.enLine .output] := rfl
@[simp] theorem driveOutput_responses : (driveOutput s).responses = s.responses := rfl
end

/-! ### applyReset -/

section
variable (s : State)
@[simp] theorem State.applyReset_cfg : s.applyReset.cfg = s.cfg := rfl
@[simp] theorem State.applyReset_fsm : s.applyReset.fsm = .unattached := rfl
@[simp] theorem State.applyReset_devref : s.applyReset.devref = none := rfl
@[simp] theorem State.applyReset_attachFail : s.applyReset.attachFail = false := rfl
@[simp] theorem State.applyReset_rdFail : s.applyReset.rdFail = false := rfl
@[simp] theorem State.applyReset_wrFail : s.applyReset.wrFail = false := rfl
@[simp] theorem State.applyReset_ce : s.applyReset.ce = .undriven := rfl
@[simp] theorem State.applyReset_hit : s.applyReset.hit = Vector.replicate 126 0 := rfl
@[simp] theorem State.applyReset_resp : s.applyReset.resp = 0 := rfl
@[simp] theorem State.applyReset_busy : s.applyReset.busy = false := rfl
@[simp] theorem State.applyReset_cmdIn : s.applyReset.cmdIn = s.cmdIn := rfl
@[simp] theorem State.applyReset_hostIn : s.applyReset.hostIn = s.hostIn := rfl
@[simp] theorem State.applyReset_respWaiting : s.applyReset.respWaiting = false := rfl
@[simp] theorem State.applyReset_frameIn : s.applyReset.frameIn = none := rfl
@[simp] theorem State.applyReset_frameOut : s.applyReset.frameOut = .nothing := rfl
@[simp] theorem State.applyReset_attachIn : s.applyReset.attachIn = s.attachIn := rfl
@[simp] theorem State.applyReset_xferIn : s.applyReset.xferIn = s.xferIn := rfl
@[simp] theorem State.applyReset_hangAfter : s.applyReset.hangAfter = s.hangAfter := rfl
@[simp] theorem State.applyReset_draws : s.applyReset.draws = s.draws := rfl
@[simp] theorem State.applyReset_events : s.applyReset.events = s.events := rfl
@[simp] theorem State.applyReset_responses : s.applyReset.responses = s.responses := rfl
end

end Sys2Proof.Machine
end

