-- ==== Sys2Proof/Laws/Hits.lean ====
section
/-! SUPPORT. The hit table: read after write, what a write leaves alone, clearing, and the saturating
increment (20_memory.md R72, R73; 42_band_scanner.md R185). -/

namespace Sys2Proof.Machine

@[simp] theorem State.readHit_writeHit_same (s : State) (c : Channel) (v : Half) :
    (s.writeHit c v).readHit c = v := by
  simp [State.readHit]

theorem State.readHit_writeHit_ne (s : State) {c d : Channel} (v : Half) (h : c ≠ d) :
    (s.writeHit c v).readHit d = s.readHit d := by
  simp [State.readHit, Fin.val_ne_of_ne h]

@[simp] theorem State.readHit_clearHits (s : State) (c : Channel) : s.clearHits.readHit c = 0 := by
  simp [State.readHit]

theorem State.writeHit_readHit (s : State) (c : Channel) : s.writeHit c (s.readHit c) = s := by
  cases s; simp [State.writeHit, State.readHit]

/-- The counter after an increment, as a number: one more, but never above 0xFFFF (R185). -/
theorem satInc_toNat (h : Half) : (satInc h).toNat = min (h.toNat + 1) 0xFFFF := by
  unfold satInc
  split
  · simp_all
  · have : h.toNat ≠ 0xFFFF := fun e => ‹¬h = _› (BitVec.eq_of_toNat_eq (by simpa using e))
    rw [BitVec.toNat_add]; simp; omega

/-- An increment below the last value is an exact one. -/
theorem satInc_toNat_of_lt {h : Half} (hl : h.toNat + 1 ≤ 65535) : (satInc h).toNat = h.toNat + 1 :=
  (satInc_toNat h).trans (Nat.min_eq_left hl)

/-- What a count leaves in each counter (R186): the channel's own goes up, no other moves. -/
theorem State.readHit_countHit (s : State) (c d : Channel) :
    (s.countHit c).readHit d = if d = c then satInc (s.readHit c) else s.readHit d := by
  unfold State.countHit
  by_cases h : d = c
  · subst h; simp
  · rw [if_neg h, State.readHit_writeHit_ne _ _ (Ne.symm h)]

end Sys2Proof.Machine
end

