-- ==== Sys2Proof/Laws/Calls.lean ====
section
/-! SUPPORT. The external calls: the answers still to come, and for each primitive the one state it
ends in when every call is answered (`State.Fair`, 70_reset_and_hazards.md R253). -/

namespace Sys2Proof.Machine

/-! ### Answers -/

theorem State.xferAnswer_eq (s : State) : s.xferAnswer = s.nthXfer 0 := by
  unfold State.xferAnswer State.nthXfer
  cases s.xferIn <;> simp

@[simp] theorem State.nthXfer_popXfer (s : State) (n : Nat) :
    s.popXfer.nthXfer n = s.nthXfer (n + 1) := by
  unfold State.nthXfer
  cases h : s.xferIn with
  | nil => simp [h, Nat.add_assoc, Nat.add_comm 1 n]
  | cons a as => simp [h]

/-- The answers to come are those of three fields alone. -/
theorem State.nthXfer_congr {s t : State} (hc : t.cfg = s.cfg) (hx : t.xferIn = s.xferIn) (hd : t.draws = s.draws)
    (n : Nat) : t.nthXfer n = s.nthXfer n := by
  simp [State.nthXfer, hc, hx, hd]

theorem State.attachAnswer_congr {s t : State} (hc : t.cfg = s.cfg) (hx : t.attachIn = s.attachIn)
    (hd : t.draws = s.draws) : t.attachAnswer = s.attachAnswer := by
  simp [State.attachAnswer, hc, hx, hd]

@[simp] theorem State.nthXfer_emit (s : State) (e : Event) (n : Nat) :
    (s.emit e).nthXfer n = s.nthXfer n := State.nthXfer_congr rfl rfl rfl n

theorem State.answered_of_fair {s : State} (h : s.Fair) : s.answered = s := by
  cases s; simp_all [State.answered, State.Fair]

/-- Ending a command, in the words claims use (R105). -/
theorem State.respond_eq_givesResponse (s : State) (k : Code) (d : Half) :
    s.respond k d = s.givesResponse (responseWord k d) := rfl

/-! ### Waiting for an answer -/

/-- Everything waiting can do. -/
theorem awaitAnswer_cases (s : State) :
    (s.hangAfter = some 0 ∧ awaitAnswer s = .hung s.stuck) ∨
    (s.hangAfter ≠ some 0 ∧ awaitAnswer s = .done () s.answered) := by
  unfold awaitAnswer
  split <;> simp_all

theorem awaitAnswer_of_fair {s : State} (h : s.Fair) : awaitAnswer s = .done () s := by
  rw [awaitAnswer, if_neg (by simp [h]), State.answered_of_fair h]

theorem awaitAnswer_of_hang {s : State} (h : s.hangAfter = some 0) :
    awaitAnswer s = .hung s.stuck := if_pos h

@[simp] theorem Ran.bind_done {α β : Type} (a : α) (s : State) (f : α → State → Ran β) :
    (Ran.done a s).bind f = f a s := rfl

@[simp] theorem Ran.bind_hung {α β : Type} (s : State) (f : α → State → Ran β) :
    (Ran.hung s : Ran α).bind f = .hung s := rfl

@[simp] theorem Ran.state_done {α : Type} (a : α) (s : State) : (Ran.done a s).state = s := rfl

@[simp] theorem Ran.state_hung {α : Type} (s : State) : (Ran.hung s : Ran α).state = s := rfl

@[simp] theorem finish_state (k : Code) (d : Half) (s : State) :
    (finish k d s).state = s.respond k d := rfl

/-- Everything a command that needs the device can do (R150). -/
theorem withDevice_cases (allowed : Fsm → Bool) (body : DevRef → State → Ran Unit) (s : State) :
    (∃ ref, s.devref = some ref ∧ allowed s.fsm = true ∧
      withDevice allowed body s = (body ref s).state) ∨
    ((allowed s.fsm = false ∨ s.devref = none) ∧
      withDevice allowed body s = s.respond .errState 0) := by
  unfold withDevice
  cases hd : s.devref with
  | none => exact .inr ⟨.inr rfl, rfl⟩
  | some ref => cases ha : allowed s.fsm <;> simp

theorem withDevice_run {allowed : Fsm → Bool} {body : DevRef → State → Ran Unit} {s : State}
    {ref : DevRef} (hd : s.devref = some ref) (ha : allowed s.fsm = true) :
    withDevice allowed body s = (body ref s).state := by
  simp [withDevice, hd, ha]

theorem withDevice_refused {allowed : Fsm → Bool} {body : DevRef → State → Ran Unit} {s : State}
    (ha : allowed s.fsm = false) : withDevice allowed body s = s.respond .errState 0 := by
  unfold withDevice
  cases s.devref <;> simp [ha]

/-! ### The calls, every one answered -/

theorem callXfer_of_fair {ref : DevRef} {tx0 tx1 : Byte} {s : State} (h : s.Fair) :
    callXfer ref tx0 tx1 s = .done (s.nthXfer 0) (s.emit (.xfer ref tx0 tx1)).popXfer := by
  have h' : (s.emit (.xfer ref tx0 tx1)).Fair := h
  simp [callXfer, awaitAnswer_of_fair h', State.xferAnswer_eq]

theorem callDelay_of_fair {us : Nat} {s : State} (h : s.Fair) :
    callDelay us s = .done () (s.emit (.delay us)) :=
  awaitAnswer_of_fair (s := s.emit (.delay us)) h

/-- The state in which ATTACH waits for the transport's answer (R152): the enable line is driven low
and the request is out. -/
def attachSent (s : State) : State :=
  (driveLow (driveOutput s)).emit (.attachReq s.cfg.busId s.cfg.csLine s.cfg.spiClkHz s.cfg.spiMode)

/-- The three events of ATTACH, in order (R152). -/
@[simp] theorem attachSent_events (s : State) : (attachSent s).events = s.events ++
    [.gpioMode s.cfg.enLine .output, .gpioLevel s.cfg.enLine .low,
      .attachReq s.cfg.busId s.cfg.csLine s.cfg.spiClkHz s.cfg.spiMode] := by
  simp [attachSent]

section
variable (s : State)
@[simp] theorem attachSent_cfg : (attachSent s).cfg = s.cfg := by simp [attachSent]
@[simp] theorem attachSent_fsm : (attachSent s).fsm = s.fsm := by simp [attachSent]
@[simp] theorem attachSent_devref : (attachSent s).devref = s.devref := by simp [attachSent]
@[simp] theorem attachSent_attachFail : (attachSent s).attachFail = s.attachFail := by simp [attachSent]
@[simp] theorem attachSent_rdFail : (attachSent s).rdFail = s.rdFail := by simp [attachSent]
@[simp] theorem attachSent_wrFail : (attachSent s).wrFail = s.wrFail := by simp [attachSent]
@[simp] theorem attachSent_hit : (attachSent s).hit = s.hit := by simp [attachSent]
@[simp] theorem attachSent_resp : (attachSent s).resp = s.resp := by simp [attachSent]
@[simp] theorem attachSent_busy : (attachSent s).busy = s.busy := by simp [attachSent]
@[simp] theorem attachSent_cmdIn : (attachSent s).cmdIn = s.cmdIn := by simp [attachSent]
@[simp] theorem attachSent_hostIn : (attachSent s).hostIn = s.hostIn := by simp [attachSent]
@[simp] theorem attachSent_respWaiting : (attachSent s).respWaiting = s.respWaiting := by simp [attachSent]
@[simp] theorem attachSent_frameIn : (attachSent s).frameIn = s.frameIn := by simp [attachSent]
@[simp] theorem attachSent_frameOut : (attachSent s).frameOut = s.frameOut := by simp [attachSent]
@[simp] theorem attachSent_attachIn : (attachSent s).attachIn = s.attachIn := by simp [attachSent]
@[simp] theorem attachSent_xferIn : (attachSent s).xferIn = s.xferIn := by simp [attachSent]
@[simp] theorem attachSent_hangAfter : (attachSent s).hangAfter = s.hangAfter := by simp [attachSent]
@[simp] theorem attachSent_draws : (attachSent s).draws = s.draws := by simp [attachSent]
@[simp] theorem attachSent_responses : (attachSent s).responses = s.responses := by simp [attachSent]
@[simp] theorem attachSent_ce : (attachSent s).ce = .low := by simp [attachSent]
end

/-- What ATTACH has changed when it waits for its answer: the enable line, and the trace. -/
theorem attachSent_eq (s : State) : attachSent s =
    { s with ce := .low, events := (attachSent s).events } := by
  cases s; rfl

/-- Everything ATTACH's call can do. -/
theorem callAttach_cases (s : State) :
    (s.hangAfter = some 0 ∧
      callAttach (driveLow (driveOutput s)) = .hung (attachSent s).stuck) ∨
    (s.hangAfter ≠ some 0 ∧
      callAttach (driveLow (driveOutput s)) =
        .done s.attachAnswer (attachSent s).answered.popAttach) := by
  have hc : callAttach (driveLow (driveOutput s)) =
      (awaitAnswer (attachSent s)).bind fun _ s => .done s.attachAnswer s.popAttach := by
    simp only [callAttach, attachSent, driveLow_cfg, driveOutput_cfg]
  have hh : (attachSent s).hangAfter = s.hangAfter := by simp [attachSent]
  have ha : (attachSent s).answered.attachAnswer = s.attachAnswer :=
    State.attachAnswer_congr (by simp [attachSent]) (by simp [attachSent]) (by simp [attachSent])
  rw [hc]
  rcases awaitAnswer_cases (attachSent s) with ⟨h, hw⟩ | ⟨h, hw⟩ <;> rw [hw]
  · exact .inl ⟨hh ▸ h, rfl⟩
  · exact .inr ⟨hh ▸ h, by rw [Ran.bind_done, ha]⟩

/-- The state after an answered write frame (R131). -/
def wrote (ref : DevRef) (a : RegAddr) (v : Byte) (s : State) : State :=
  { s.popXfer with
    events := s.events ++ [.xfer ref (writeByte a) v]
    wrFail := s.wrFail || (s.nthXfer 0).isErr }

/-- The state after an answered read frame (R130). -/
def wasRead (ref : DevRef) (a : RegAddr) (s : State) : State :=
  { s.popXfer with
    events := s.events ++ [.xfer ref (readByte a) s.cfg.filler]
    rdFail := s.rdFail || (s.nthXfer 0).isErr }

/-- The result of an answered read frame (R130). -/
def readResult : XferAnswer → ReadResult
  | .ok _ rx1 => .value rx1
  | .err => .failed

theorem regWrite_of_fair {ref : DevRef} {a : RegAddr} {v : Byte} {s : State} (h : s.Fair) :
    regWrite ref a v s = .done () (wrote ref a v s) := by
  rw [regWrite, callXfer_of_fair h]
  cases ha : s.nthXfer 0 <;>
    simp [writeOutcome, wrote, ha, XferAnswer.isErr, State.flagWrFail, State.popXfer, State.emit]

theorem regRead_of_fair {ref : DevRef} {a : RegAddr} {s : State} (h : s.Fair) :
    regRead ref a s = .done (readResult (s.nthXfer 0)) (wasRead ref a s) := by
  rw [regRead, callXfer_of_fair h]
  cases ha : s.nthXfer 0 <;>
    simp [readOutcome, wasRead, readResult, ha, XferAnswer.isErr, State.flagRdFail, State.popXfer,
      State.emit]

theorem wrote_fair {ref : DevRef} {a : RegAddr} {v : Byte} {s : State} (h : s.Fair) :
    (wrote ref a v s).Fair := h

theorem wasRead_fair {ref : DevRef} {a : RegAddr} {s : State} (h : s.Fair) :
    (wasRead ref a s).Fair := h

@[simp] theorem nthXfer_wrote (ref : DevRef) (a : RegAddr) (v : Byte) (s : State) (n : Nat) :
    (wrote ref a v s).nthXfer n = s.nthXfer (n + 1) :=
  (State.nthXfer_congr rfl rfl rfl n).trans (State.nthXfer_popXfer s n)

@[simp] theorem nthXfer_wasRead (ref : DevRef) (a : RegAddr) (s : State) (n : Nat) :
    (wasRead ref a s).nthXfer n = s.nthXfer (n + 1) :=
  (State.nthXfer_congr rfl rfl rfl n).trans (State.nthXfer_popXfer s n)

end Sys2Proof.Machine
end

