-- ==== Sys2Proof/Laws/Bus.lean ====
section
/-! SUPPORT. What a sequence of bus calls can do at all, answered or not: which fields it keeps,
which events it adds, how many, and whether the instance is left busy (70_reset_and_hazards.md R253). -/

namespace Sys2Proof.Machine

/-- What a sequence of calls to one device leaves: fields kept, flags only raised, permitted events
of that device added, and a counter changed only if its channel was tested. -/
structure BusStep (ref : DevRef) (es : List Event) (s t : State) : Prop where
  cfg         : t.cfg = s.cfg
  fsm         : t.fsm = s.fsm
  devref      : t.devref = s.devref
  attachFail  : t.attachFail = s.attachFail
  ce          : t.ce = s.ce
  resp        : t.resp = s.resp
  respWaiting : t.respWaiting = s.respWaiting
  responses   : t.responses = s.responses
  cmdIn       : t.cmdIn = s.cmdIn
  hostIn      : t.hostIn = s.hostIn
  frameIn     : t.frameIn = s.frameIn
  frameOut    : t.frameOut = s.frameOut
  attachIn    : t.attachIn = s.attachIn
  rdFail      : s.rdFail = true → t.rdFail = true
  wrFail      : s.wrFail = true → t.wrFail = true
  events      : t.events = s.events ++ es
  permitted   : ∀ e ∈ es, e.permitted s.cfg
  device      : ∀ r tx0 tx1, Event.xfer r tx0 tx1 ∈ es → r = ref
  hit         : ∀ c : Channel, t.hit[c] = s.hit[c] ∨
    Event.xfer ref (writeByte s.cfg.addrRfCh) (channelByte c) ∈ es

theorem BusStep.refl (ref : DevRef) (s : State) : BusStep ref [] s s where
  cfg := rfl
  fsm := rfl
  devref := rfl
  attachFail := rfl
  ce := rfl
  resp := rfl
  respWaiting := rfl
  responses := rfl
  cmdIn := rfl
  hostIn := rfl
  frameIn := rfl
  frameOut := rfl
  attachIn := rfl
  rdFail := id
  wrFail := id
  events := (List.append_nil _).symm
  permitted := by simp
  device := by simp
  hit _ := .inl rfl

theorem BusStep.trans {ref : DevRef} {es fs : List Event} {s t u : State}
    (h : BusStep ref es s t) (k : BusStep ref fs t u) : BusStep ref (es ++ fs) s u where
  cfg := k.cfg.trans h.cfg
  fsm := k.fsm.trans h.fsm
  devref := k.devref.trans h.devref
  attachFail := k.attachFail.trans h.attachFail
  ce := k.ce.trans h.ce
  resp := k.resp.trans h.resp
  respWaiting := k.respWaiting.trans h.respWaiting
  responses := k.responses.trans h.responses
  cmdIn := k.cmdIn.trans h.cmdIn
  hostIn := k.hostIn.trans h.hostIn
  frameIn := k.frameIn.trans h.frameIn
  frameOut := k.frameOut.trans h.frameOut
  attachIn := k.attachIn.trans h.attachIn
  rdFail := k.rdFail ∘ h.rdFail
  wrFail := k.wrFail ∘ h.wrFail
  events := by rw [k.events, h.events, List.append_assoc]
  permitted e he := by
    rcases List.mem_append.1 he with h1 | h1
    · exact h.permitted e h1
    · exact h.cfg ▸ k.permitted e h1
  device r a b he := (List.mem_append.1 he).elim (h.device r a b) (k.device r a b)
  hit c := by
    rcases k.hit c with h1 | h1
    · exact (h.hit c).imp h1.trans (List.mem_append_left _)
    · exact .inr (List.mem_append_right _ (h.cfg ▸ h1))

/-- How a sequence of calls can end: done, with the busy bit as it was, or in a call that is never
answered, busy. At most `n` events either way. -/
inductive Ran.Bus {α : Type} (ref : DevRef) (n : Nat) (s : State) : Ran α → Prop where
  | done (a : α) (t : State) (es : List Event) (step : BusStep ref es s t) (le : es.length ≤ n)
      (busy : t.busy = s.busy) : Bus ref n s (.done a t)
  | hung (t : State) (es : List Event) (step : BusStep ref es s t) (le : es.length ≤ n)
      (busy : t.busy = true) : Bus ref n s (.hung t)

/-- Whatever the ending, the state is one bus calls can leave. -/
theorem Ran.Bus.state {α : Type} {ref : DevRef} {n : Nat} {s : State} {r : Ran α}
    (h : r.Bus ref n s) : ∃ es, BusStep ref es s r.state ∧ es.length ≤ n := by
  cases h with
  | done a t es step le _ => exact ⟨es, step, le⟩
  | hung t es step le _ => exact ⟨es, step, le⟩

theorem Ran.Bus.mono {α : Type} {ref : DevRef} {n m : Nat} {s : State} {r : Ran α}
    (h : r.Bus ref n s) (hm : n ≤ m) : r.Bus ref m s := by
  cases h with
  | done a t es step le b => exact .done a t es step (le.trans hm) b
  | hung t es step le b => exact .hung t es step (le.trans hm) b

/-- One sequence after another. -/
theorem Ran.Bus.bind {α β : Type} {ref : DevRef} {n m : Nat} {s : State} {r : Ran α}
    {f : α → State → Ran β} (h : r.Bus ref n s)
    (hf : ∀ a t, t.cfg = s.cfg → (f a t).Bus ref m t) : (r.bind f).Bus ref (n + m) s := by
  cases h with
  | hung t es step le b => exact .hung t es step (by omega) b
  | done a t es step le b =>
    have := hf a t step.cfg
    rw [Ran.bind_done]
    revert this
    generalize f a t = r'
    intro h'
    cases h' with
    | done a' u fs step' le' b' =>
      exact .done a' u _ (step.trans step') (by simp; omega) (b'.trans b)
    | hung u fs step' le' b' => exact .hung u _ (step.trans step') (by simp; omega) b'

/-- A step of no call. -/
theorem Ran.Bus.pure {α : Type} {ref : DevRef} {s t : State} (a : α) (h : BusStep ref [] s t)
    (hb : t.busy = s.busy) : (Ran.done a t).Bus ref 0 s := .done a t [] h (by simp) hb

@[simp] theorem frameByte_high (cmd : BitVec 3) (a : RegAddr) (h : cmd.extractLsb' 1 2 = 0#2) :
    (frameByte cmd a).extractLsb' 6 2 = 0#2 := by
  refine BitVec.eq_of_getLsbD_eq fun i hi => ?_
  have hc := congrArg (fun v => v.getLsbD i) h
  simp only [BitVec.getLsbD_extractLsb', hi, decide_true, Bool.true_and] at hc ⊢
  rw [getLsbD_frameByte, if_neg (by omega), show 6 + i - 5 = 1 + i by omega, hc]

theorem readByte_high (a : RegAddr) : (readByte a).extractLsb' 6 2 = 0#2 := frameByte_high _ a rfl

theorem writeByte_high (a : RegAddr) : (writeByte a).extractLsb' 6 2 = 0#2 := frameByte_high _ a rfl

/-- Waiting for the answer to a call just issued. -/
theorem awaitAnswer_bus (ref : DevRef) (e : Event) (s : State) (hp : e.permitted s.cfg)
    (hd : ∀ r tx0 tx1, Event.xfer r tx0 tx1 = e → r = ref) :
    (awaitAnswer (s.emit e)).Bus ref 1 s := by
  have hdev : ∀ r tx0 tx1, Event.xfer r tx0 tx1 ∈ [e] → r = ref := fun r a b h =>
    hd r a b (List.mem_singleton.1 h)
  have hper : ∀ e' ∈ [e], e'.permitted s.cfg := fun e' h => List.mem_singleton.1 h ▸ hp
  rcases awaitAnswer_cases (s.emit e) with ⟨_, h⟩ | ⟨_, h⟩ <;> rw [h]
  · exact .hung _ [e] ⟨rfl, rfl, rfl, rfl, rfl, rfl, rfl, rfl, rfl, rfl, rfl, rfl, rfl, id, id, rfl,
      hper, hdev, fun _ => .inl rfl⟩ le_rfl rfl
  · exact .done _ _ [e] ⟨rfl, rfl, rfl, rfl, rfl, rfl, rfl, rfl, rfl, rfl, rfl, rfl, rfl, id, id, rfl,
      hper, hdev, fun _ => .inl rfl⟩ le_rfl rfl

theorem popXfer_busStep (ref : DevRef) (s : State) : BusStep ref [] s s.popXfer :=
  ⟨rfl, rfl, rfl, rfl, rfl, rfl, rfl, rfl, rfl, rfl, rfl, rfl, rfl, id, id,
    (List.append_nil _).symm, by simp, by simp, fun _ => .inl rfl⟩

theorem flagRdFail_busStep (ref : DevRef) (s : State) : BusStep ref [] s s.flagRdFail :=
  ⟨rfl, rfl, rfl, rfl, rfl, rfl, rfl, rfl, rfl, rfl, rfl, rfl, rfl, fun _ => rfl, id,
    (List.append_nil _).symm, by simp, by simp, fun _ => .inl rfl⟩

theorem flagWrFail_busStep (ref : DevRef) (s : State) : BusStep ref [] s s.flagWrFail :=
  ⟨rfl, rfl, rfl, rfl, rfl, rfl, rfl, rfl, rfl, rfl, rfl, rfl, rfl, id, fun _ => rfl,
    (List.append_nil _).symm, by simp, by simp, fun _ => .inl rfl⟩

theorem callXfer_bus (ref : DevRef) (tx0 tx1 : Byte) (s : State)
    (h : tx0.extractLsb' 6 2 = 0#2) : (callXfer ref tx0 tx1 s).Bus ref 1 s :=
  (awaitAnswer_bus ref (.xfer ref tx0 tx1) s h fun r a b e => by injection e).bind
    fun _ t _ => .pure _ (popXfer_busStep ref t) rfl

theorem callDelay_bus (ref : DevRef) (us : Nat) (s : State) (h : us = 150 ∨ us = 2000) :
    (callDelay us s).Bus ref 1 s :=
  awaitAnswer_bus ref (.delay us) s h fun r a b e => by injection e

theorem regRead_bus (ref : DevRef) (a : RegAddr) (s : State) : (regRead ref a s).Bus ref 1 s := by
  unfold regRead
  refine (callXfer_bus ref _ _ s (readByte_high a)).bind (m := 0) fun x t _ => ?_
  cases x with
  | ok rx0 rx1 => exact .pure _ (.refl ref t) rfl
  | err => exact .pure _ (flagRdFail_busStep ref t) rfl

theorem regWrite_bus (ref : DevRef) (a : RegAddr) (v : Byte) (s : State) :
    (regWrite ref a v s).Bus ref 1 s := by
  unfold regWrite
  refine (callXfer_bus ref _ _ s (writeByte_high a)).bind (m := 0) fun x t _ => ?_
  cases x with
  | ok rx0 rx1 => exact .pure _ (.refl ref t) rfl
  | err => exact .pure _ (flagWrFail_busStep ref t) rfl

theorem busyTest_bus (ref : DevRef) (c : Channel) (s : State) : (busyTest ref c s).Bus ref 3 s :=
  (regWrite_bus ref _ _ s).bind (m := 2) fun _ t _ =>
    (callDelay_bus ref _ t (.inl rfl)).bind (m := 1) fun _ u _ =>
      (regRead_bus ref _ u).bind (m := 0) fun _ v _ => .pure _ (.refl ref v) rfl

/-- The first event of a busy test is the channel write, if it gets that far to be done. -/
theorem busyTest_writes (ref : DevRef) (c : Channel) (s t : State) (b : BusyResult) (es : List Event)
    (h : busyTest ref c s = .done b t) (he : t.events = s.events ++ es) :
    Event.xfer ref (writeByte s.cfg.addrRfCh) (channelByte c) ∈ es := by
  unfold busyTest regWrite callXfer at h
  rcases awaitAnswer_cases (s.emit (.xfer ref (writeByte s.cfg.addrRfCh) (channelByte c))) with
    ⟨_, hw⟩ | ⟨_, hw⟩
  · rw [hw] at h; cases h
  rw [hw] at h
  simp only [Ran.bind_done] at h
  set u := ((s.emit (.xfer ref (writeByte s.cfg.addrRfCh) (channelByte c))).answered).popXfer
  have hu : u.events = s.events ++ [.xfer ref (writeByte s.cfg.addrRfCh) (channelByte c)] := rfl
  have hrest : ∀ v : State, v.events = u.events →
      ((callDelay Config.chSettleUs v).bind fun _ s => (regRead ref s.cfg.addrRpd s).bind fun r s =>
        Ran.done (busyOf r) s) = .done b t → ∃ fs, t.events = v.events ++ fs := by
    intro v _ hv
    have hb : ((callDelay Config.chSettleUs v).bind fun _ s => (regRead ref s.cfg.addrRpd s).bind
        fun r s => Ran.done (busyOf r) s).Bus ref (1 + 1) v :=
      (callDelay_bus ref _ v (.inl rfl)).bind (m := 1) fun _ u _ =>
        (regRead_bus ref _ u).bind (m := 0) fun _ v _ => .pure _ (.refl ref v) rfl
    rw [hv] at hb
    obtain ⟨fs, hfs, _⟩ := hb.state
    exact ⟨fs, hfs.events⟩
  have hfin : ∃ fs, t.events = u.events ++ fs := by
    cases hx : (s.emit (.xfer ref (writeByte s.cfg.addrRfCh) (channelByte c))).answered.xferAnswer with
    | ok rx0 rx1 => rw [hx] at h; exact hrest u rfl h
    | err => rw [hx] at h; exact hrest u.flagWrFail rfl h
  obtain ⟨fs, hfs⟩ := hfin
  rw [hu, List.append_assoc, he] at hfs
  rw [List.append_cancel_left hfs]
  simp

/-- One channel of a sweep: the test, and the count if it was busy. -/
theorem countedTest_bus (ref : DevRef) (c : Channel) (s : State) :
    ((busyTest ref c s).bind fun b t => Ran.done b (countIfBusy c b t)).Bus ref 3 s := by
  have h := busyTest_bus ref c s
  cases hr : busyTest ref c s with
  | hung t => rw [hr] at h; cases h with | hung _ es step le b => exact .hung t es step le b
  | done a t =>
    rw [hr] at h
    cases h with
    | done _ _ es step le b =>
      have hmem := busyTest_writes ref c s t a es hr step.events
      refine .done a _ es ?_ le ?_
      · unfold countIfBusy
        split
        · exact { step with
            hit := fun d => by
              by_cases hd : d = c
              · subst hd; exact .inr hmem
              · refine (step.hit d).imp_left fun h => ?_
                change (t.countHit c).readHit d = _
                rw [State.readHit_countHit, if_neg hd]
                exact h }
        · exact step
      · unfold countIfBusy
        split <;> exact b

theorem sweepChannels_bus (ref : DevRef) (cs : List Channel) :
    ∀ s, (sweepChannels ref cs s).Bus ref (3 * cs.length) s := by
  induction cs with
  | nil => intro s; exact .pure _ (.refl ref s) rfl
  | cons c cs ih =>
    intro s
    have h := (countedTest_bus ref c s).bind (m := 3 * cs.length)
      (f := fun _ t => (sweepChannels ref cs t).bind fun n t => .done (n + 1) t)
      fun _ t _ => (ih t).bind (m := 0) fun n u _ => .pure _ (.refl ref u) rfl
    have he : sweepChannels ref (c :: cs) s =
        ((busyTest ref c s).bind fun b t => Ran.done b (countIfBusy c b t)).bind
          fun _ t => (sweepChannels ref cs t).bind fun n t => .done (n + 1) t := by
      rw [sweepChannels.eq_2]
      cases busyTest ref c s <;> rfl
    rw [he]
    exact h.mono (by simp; omega)

theorem sweepOnce_bus (ref : DevRef) (b m : Nat) (s : State) :
    (sweepOnce ref b m s).Bus ref (3 * 126) s :=
  (sweepChannels_bus ref _ s).mono <| Nat.mul_le_mul_left 3 <|
    (List.length_filter_le _ _).trans (by simp)

theorem sweepRepeat_bus (ref : DevRef) (b m k : Nat) :
    ∀ s, (sweepRepeat ref b m k s).Bus ref (k * (3 * 126)) s := by
  induction k with
  | zero => intro s; exact (Ran.Bus.pure _ (.refl ref s) rfl).mono (by simp)
  | succ k ih =>
    intro s
    exact ((sweepOnce_bus ref b m s).bind fun _ t _ => ih t).mono (by rw [Nat.succ_mul]; omega)

end Sys2Proof.Machine
end

