-- ==== Sys2Proof/Laws/Exec.lean ====
section
/-! SUPPORT. What an instruction can do at all, answered or not: one inversion lemma for `exec` and
one for `step`, from which the rules of the whole machine follow. -/

namespace Sys2Proof.Machine

/-! ### Calls that leave the hit table alone -/

theorem bind_hit {α β : Type} {r : Ran α} {f : α → State → Ran β} {s : State}
    (h : r.state.hit = s.hit) (hf : ∀ a t, (f a t).state.hit = t.hit) :
    (r.bind f).state.hit = s.hit := by
  cases r with
  | done a t => exact (hf a t).trans h
  | hung t => exact h

theorem awaitAnswer_hit (s : State) : (awaitAnswer s).state.hit = s.hit := by
  rcases awaitAnswer_cases s with ⟨_, h⟩ | ⟨_, h⟩ <;> rw [h] <;> rfl

theorem callXfer_hit (ref : DevRef) (tx0 tx1 : Byte) (s : State) :
    (callXfer ref tx0 tx1 s).state.hit = s.hit :=
  bind_hit (awaitAnswer_hit (s.emit _)) fun _ _ => rfl

theorem callDelay_hit (us : Nat) (s : State) : (callDelay us s).state.hit = s.hit :=
  awaitAnswer_hit (s.emit _)

theorem regRead_hit (ref : DevRef) (a : RegAddr) (s : State) : (regRead ref a s).state.hit = s.hit :=
  bind_hit (callXfer_hit ref _ _ s) fun x _ => by cases x <;> rfl

theorem regWrite_hit (ref : DevRef) (a : RegAddr) (v : Byte) (s : State) :
    (regWrite ref a v s).state.hit = s.hit :=
  bind_hit (callXfer_hit ref _ _ s) fun x _ => by cases x <;> rfl

theorem busyTest_hit (ref : DevRef) (c : Channel) (s : State) :
    (busyTest ref c s).state.hit = s.hit :=
  bind_hit (regWrite_hit ref _ _ s) fun _ t =>
    bind_hit (callDelay_hit _ t) fun _ u => bind_hit (regRead_hit ref _ u) fun _ _ => rfl

/-! ### What an instruction can do -/

/-- SWEEP and CYCLE, the commands that count (42_band_scanner.md R194). -/
def countsHits : Instr → Bool
  | .sweep _ _ | .cycle => true
  | _ => false

/-- The state bus calls start from: CYCLE clears the table first (R188). -/
def scanStart (i : Instr) (s : State) : State := if i = .cycle then s.clearHits else s

/-- What an answered command makes of the state its calls end in, before it responds: CONFIGURE
raises the bring-up state, POWER_UP drives the enable line high and listens, no other writes. -/
def settle (i : Instr) (u : State) : State :=
  match i with
  | .configure => raiseToConfigured u
  | .powerUp => (driveHigh u).setFsm .listening
  | _ => u

section
variable (i : Instr) (s : State)
@[simp] theorem scanStart_cfg : (scanStart i s).cfg = s.cfg := by unfold scanStart; split <;> rfl
@[simp] theorem scanStart_fsm : (scanStart i s).fsm = s.fsm := by unfold scanStart; split <;> rfl
@[simp] theorem scanStart_devref : (scanStart i s).devref = s.devref := by unfold scanStart; split <;> rfl
@[simp] theorem scanStart_attachFail : (scanStart i s).attachFail = s.attachFail := by unfold scanStart; split <;> rfl
@[simp] theorem scanStart_rdFail : (scanStart i s).rdFail = s.rdFail := by unfold scanStart; split <;> rfl
@[simp] theorem scanStart_wrFail : (scanStart i s).wrFail = s.wrFail := by unfold scanStart; split <;> rfl
@[simp] theorem scanStart_ce : (scanStart i s).ce = s.ce := by unfold scanStart; split <;> rfl
@[simp] theorem scanStart_resp : (scanStart i s).resp = s.resp := by unfold scanStart; split <;> rfl
@[simp] theorem scanStart_busy : (scanStart i s).busy = s.busy := by unfold scanStart; split <;> rfl
@[simp] theorem scanStart_cmdIn : (scanStart i s).cmdIn = s.cmdIn := by unfold scanStart; split <;> rfl
@[simp] theorem scanStart_hostIn : (scanStart i s).hostIn = s.hostIn := by unfold scanStart; split <;> rfl
@[simp] theorem scanStart_respWaiting : (scanStart i s).respWaiting = s.respWaiting := by unfold scanStart; split <;> rfl
@[simp] theorem scanStart_frameIn : (scanStart i s).frameIn = s.frameIn := by unfold scanStart; split <;> rfl
@[simp] theorem scanStart_frameOut : (scanStart i s).frameOut = s.frameOut := by unfold scanStart; split <;> rfl
@[simp] theorem scanStart_attachIn : (scanStart i s).attachIn = s.attachIn := by unfold scanStart; split <;> rfl
@[simp] theorem scanStart_xferIn : (scanStart i s).xferIn = s.xferIn := by unfold scanStart; split <;> rfl
@[simp] theorem scanStart_hangAfter : (scanStart i s).hangAfter = s.hangAfter := by unfold scanStart; split <;> rfl
@[simp] theorem scanStart_draws : (scanStart i s).draws = s.draws := by unfold scanStart; split <;> rfl
@[simp] theorem scanStart_events : (scanStart i s).events = s.events := by unfold scanStart; split <;> rfl
@[simp] theorem scanStart_responses : (scanStart i s).responses = s.responses := by unfold scanStart; split <;> rfl
end

section
variable (i : Instr) (u : State)
@[simp] theorem settle_cfg : (settle i u).cfg = u.cfg := by
  cases i <;> first | rfl | (simp [settle]; done) | (simp only [settle, raiseToConfigured]; split <;> rfl)
@[simp] theorem settle_devref : (settle i u).devref = u.devref := by
  cases i <;> first | rfl | (simp [settle]; done) | (simp only [settle, raiseToConfigured]; split <;> rfl)
@[simp] theorem settle_attachFail : (settle i u).attachFail = u.attachFail := by
  cases i <;> first | rfl | (simp [settle]; done) | (simp only [settle, raiseToConfigured]; split <;> rfl)
@[simp] theorem settle_rdFail : (settle i u).rdFail = u.rdFail := by
  cases i <;> first | rfl | (simp [settle]; done) | (simp only [settle, raiseToConfigured]; split <;> rfl)
@[simp] theorem settle_wrFail : (settle i u).wrFail = u.wrFail := by
  cases i <;> first | rfl | (simp [settle]; done) | (simp only [settle, raiseToConfigured]; split <;> rfl)
@[simp] theorem settle_resp : (settle i u).resp = u.resp := by
  cases i <;> first | rfl | (simp [settle]; done) | (simp only [settle, raiseToConfigured]; split <;> rfl)
@[simp] theorem settle_busy : (settle i u).busy = u.busy := by
  cases i <;> first | rfl | (simp [settle]; done) | (simp only [settle, raiseToConfigured]; split <;> rfl)
@[simp] theorem settle_cmdIn : (settle i u).cmdIn = u.cmdIn := by
  cases i <;> first | rfl | (simp [settle]; done) | (simp only [settle, raiseToConfigured]; split <;> rfl)
@[simp] theorem settle_hostIn : (settle i u).hostIn = u.hostIn := by
  cases i <;> first | rfl | (simp [settle]; done) | (simp only [settle, raiseToConfigured]; split <;> rfl)
@[simp] theorem settle_respWaiting : (settle i u).respWaiting = u.respWaiting := by
  cases i <;> first | rfl | (simp [settle]; done) | (simp only [settle, raiseToConfigured]; split <;> rfl)
@[simp] theorem settle_frameIn : (settle i u).frameIn = u.frameIn := by
  cases i <;> first | rfl | (simp [settle]; done) | (simp only [settle, raiseToConfigured]; split <;> rfl)
@[simp] theorem settle_frameOut : (settle i u).frameOut = u.frameOut := by
  cases i <;> first | rfl | (simp [settle]; done) | (simp only [settle, raiseToConfigured]; split <;> rfl)
@[simp] theorem settle_attachIn : (settle i u).attachIn = u.attachIn := by
  cases i <;> first | rfl | (simp [settle]; done) | (simp only [settle, raiseToConfigured]; split <;> rfl)
@[simp] theorem settle_xferIn : (settle i u).xferIn = u.xferIn := by
  cases i <;> first | rfl | (simp [settle]; done) | (simp only [settle, raiseToConfigured]; split <;> rfl)
@[simp] theorem settle_hangAfter : (settle i u).hangAfter = u.hangAfter := by
  cases i <;> first | rfl | (simp [settle]; done) | (simp only [settle, raiseToConfigured]; split <;> rfl)
@[simp] theorem settle_draws : (settle i u).draws = u.draws := by
  cases i <;> first | rfl | (simp [settle]; done) | (simp only [settle, raiseToConfigured]; split <;> rfl)
@[simp] theorem settle_responses : (settle i u).responses = u.responses := by
  cases i <;> first | rfl | (simp [settle]; done) | (simp only [settle, raiseToConfigured]; split <;> rfl)
@[simp] theorem settle_hit : (settle i u).hit = u.hit := by
  cases i <;> first | rfl | (simp [settle]; done) | (simp only [settle, raiseToConfigured]; split <;> rfl)
end

/-- Everything an instruction that answers a next state can have done. -/
inductive ExecShape (i : Instr) (s t : State) : Prop where
  /-- It only answered. -/
  | answer (hi : isCommand i = true) (k : Code) (d : Half) (ht : t = s.respond k d)
  /-- It cleared the table and answered. -/
  | clear (hi : i = .clearTable) (ht : t = s.clearHits.respond .ok 0)
  /-- It was a frame with no device to go to. -/
  | noDevice (hi : isCommand i = false) (hd : s.devref = none) (ht : t = s.setFrameOut .noDevice)
  /-- ATTACH whose request is not answered. -/
  | attachHung (hi : i = .attach) (hf : s.fsm = .unattached)
      (ht : t = (attachSent s).stuck)
  /-- ATTACH whose request is answered. -/
  | attachDone (hi : i = .attach) (hf : s.fsm = .unattached) (u : State)
      (hu : u = (attachSent s).answered.popAttach)
      (ht : (∃ ref, s.attachAnswer = .ok ref ∧
          t = ((u.setDevref ref).setFsm .attached).respond .ok 0) ∨
        (s.attachAnswer = .err ∧ t = u.flagAttachFail.respond .attachFail 0))
  /-- It made calls to its device, and one of them is not answered. -/
  | busHung (ref : DevRef) (hd : s.devref = some ref) (hi : i ≠ .attach ∧ i ≠ .clearTable)
      (ha : allowedIn i s.fsm = true)
      (es : List Event) (step : BusStep ref es (scanStart i s) t) (hes : es.length ≤ 3 * (65535 * 126)
        ∨ s.cfg.wellFormed = false)
      (hhit : countsHits i = false → t.hit = s.hit) (busy : t.busy = true)
  /-- A command made calls to its device, settled what it writes, and answered. -/
  | busDone (ref : DevRef) (hd : s.devref = some ref) (hi : i ≠ .attach ∧ i ≠ .clearTable)
      (hc : isCommand i = true) (ha : allowedIn i s.fsm = true) (u : State)
      (es : List Event) (step : BusStep ref es (scanStart i s) u) (hes : es.length ≤ 3 * (65535 * 126)
        ∨ s.cfg.wellFormed = false) (hpu : i = .powerUp → es.length ≤ 2)
      (hhit : countsHits i = false → u.hit = s.hit) (k : Code) (d : Half)
      (ht : t = (settle i u).respond k d)
  /-- A frame was sent and answered. -/
  | frameDone (hi : isCommand i = false) (ref : DevRef) (hd : s.devref = some ref) (u : State)
      (es : List Event) (step : BusStep ref es s u) (hes : es.length ≤ 1) (hhit : u.hit = s.hit)
      (busy : u.busy = s.busy) (o : FrameOut) (ht : t = u.setFrameOut o)

theorem scanStart_of_ne {i : Instr} (h : i ≠ .cycle) (s : State) : scanStart i s = s := if_neg h

/-- A command whose calls have been run as a sequence that ends in a response. -/
theorem execShape_of_bus {i : Instr} {s : State} {ref : DevRef} {n : Nat} {α : Type} {r : Ran α}
    {f : α → State → Ran Unit} (hd : s.devref = some ref) (hi : i ≠ .attach ∧ i ≠ .clearTable)
    (hc : isCommand i = true) (ha : allowedIn i s.fsm = true) (hr : r.Bus ref n (scanStart i s))
    (hn : n ≤ 3 * (65535 * 126) ∨ s.cfg.wellFormed = false) (hp : i = .powerUp → n ≤ 2)
    (hh : countsHits i = false → r.state.hit = s.hit)
    (hf : ∀ a u, ∃ k d, f a u = finish k d (settle i u)) : ExecShape i s (r.bind f).state := by
  cases hr with
  | hung t es step le busy =>
    exact .busHung ref hd hi ha es step (hn.imp_left le.trans) hh busy
  | done a u es step le busy =>
    obtain ⟨k, d, hk⟩ := hf a u
    rw [Ran.bind_done, hk]
    exact .busDone ref hd hi hc ha u es step (hn.imp_left le.trans) (fun h => le.trans (hp h)) hh k d rfl

/-- A frame whose transfer has been run. -/
theorem execShape_of_frame {i : Instr} {s : State} {ref : DevRef} {α : Type} {r : Ran α}
    {f : α → State → Ran Unit} (hd : s.devref = some ref) (hi : isCommand i = false)
    (hr : r.Bus ref 1 s) (hh : r.state.hit = s.hit)
    (hf : ∀ a u, ∃ o, f a u = .done () (u.setFrameOut o)) : ExecShape i s (r.bind f).state := by
  have h1 : i ≠ .attach ∧ i ≠ .clearTable ∧ i ≠ .cycle ∧ ∀ f, allowedIn i f = true := by
    cases i <;> first | (simp [isCommand] at hi; done) | simp [allowedIn]
  cases hr with
  | hung t es step le busy =>
    exact .busHung ref hd ⟨h1.1, h1.2.1⟩ (h1.2.2.2 _) es
      ((scanStart_of_ne h1.2.2.1 s).symm ▸ step) (.inl (by omega)) (fun _ => hh) busy
  | done a u es step le busy =>
    obtain ⟨o, ho⟩ := hf a u
    rw [Ran.bind_done, ho]
    exact .frameDone hi ref hd u es step le hh busy o rfl

/-- `withDevice`, as a shape. -/
theorem execShape_of_withDevice {i : Instr} {s : State} {allowed : Fsm → Bool}
    {body : DevRef → State → Ran Unit} (hc : isCommand i = true)
    (ha : ∀ f, allowed f = true → allowedIn i f = true)
    (hb : ∀ ref, s.devref = some ref → allowedIn i s.fsm = true →
      ExecShape i s (body ref s).state) : ExecShape i s (withDevice allowed body s) := by
  rcases withDevice_cases allowed body s with ⟨ref, hd, hal, h⟩ | ⟨_, h⟩ <;> rw [h]
  · exact hb ref hd (ha _ hal)
  · exact .answer hc .errState 0 rfl

theorem bindChain_bus {ref : DevRef} {n m : Nat} {s : State} {α β : Type} {r : Ran α}
    {f : α → State → Ran β} (h : r.Bus ref n s) (hf : ∀ a t, (f a t).Bus ref m t) :
    (r.bind f).Bus ref (n + m) s := h.bind fun a t _ => hf a t

theorem Ran.bind_assoc {α β γ : Type} (r : Ran α) (f : α → State → Ran β)
    (g : β → State → Ran γ) : (r.bind f).bind g = r.bind fun a t => (f a t).bind g := by
  cases r <;> rfl

/-- Every instruction answers a next state, and what it can have done. -/
theorem exec_shape (i : Instr) (s : State) : ∃ t, exec i s = .next t ∧ ExecShape i s t := by
  cases i <;> refine ⟨_, rfl, ?_⟩
  case nop => exact .answer rfl _ _ rfl
  case readStatus => exact .answer rfl _ _ rfl
  case clearTable => exact .clear rfl rfl
  case readHit c =>
    change ExecShape _ s (match channelOperand c with
      | some ch => s.respond .ok (s.readHit ch)
      | none => s.respond .errRange 0)
    cases channelOperand c <;> exact .answer rfl _ _ rfl
  case attach =>
    split
    · rename_i hf
      rcases callAttach_cases s with ⟨_, h⟩ | ⟨_, h⟩ <;> rw [h]
      · exact .attachHung rfl hf rfl
      · refine .attachDone rfl hf _ rfl ?_
        rw [Ran.bind_done]
        cases ha : s.attachAnswer with
        | ok ref => exact .inl ⟨ref, rfl, rfl⟩
        | err => exact .inr ⟨rfl, rfl⟩
    · exact .answer rfl _ _ rfl
  case configure =>
    refine execShape_of_withDevice rfl (by intro f; cases f <;> simp [Fsm.allowsBus, allowedIn])
      fun ref hd ha => ?_
    rw [← Ran.bind_assoc]
    refine execShape_of_bus hd (by decide) rfl ha
      ((regWrite_bus ref _ _ s).bind fun _ t _ => regWrite_bus ref _ _ t) (.inl (by decide)) (by simp)
      (fun _ => bind_hit (regWrite_hit ref _ _ s) fun _ t => regWrite_hit ref _ _ t)
      fun _ u => ⟨_, _, rfl⟩
  case powerUp =>
    refine execShape_of_withDevice rfl (by intro f; cases f <;> simp [Fsm.allowsPowerUp, allowedIn])
      fun ref hd ha => ?_
    rw [← Ran.bind_assoc]
    refine execShape_of_bus hd (by decide) rfl ha
      ((regWrite_bus ref _ _ s).bind fun _ t _ => callDelay_bus ref _ t (.inr rfl)) (.inl (by decide)) (by simp)
      (fun _ => bind_hit (regWrite_hit ref _ _ s) fun _ t => callDelay_hit _ t)
      fun _ u => ⟨_, _, rfl⟩
  case readReg a8 =>
    refine execShape_of_withDevice rfl (by intro f; cases f <;> simp [Fsm.allowsBus, allowedIn])
      fun ref hd ha => ?_
    refine execShape_of_bus hd (by simp) rfl ha (regRead_bus ref _ s) (.inl (by decide)) (by simp)
      (fun _ => regRead_hit ref _ s) fun r u => ?_
    cases r <;> exact ⟨_, _, rfl⟩
  case writeReg a8 v =>
    refine execShape_of_withDevice rfl (by intro f; cases f <;> simp [Fsm.allowsBus, allowedIn])
      fun ref hd ha => ?_
    exact execShape_of_bus hd (by simp) rfl ha (regWrite_bus ref _ _ s) (.inl (by decide)) (by simp)
      (fun _ => regWrite_hit ref _ _ s) fun _ u => ⟨_, _, rfl⟩
  case busyTest c =>
    refine execShape_of_withDevice rfl (by intro f; cases f <;> simp [Fsm.allowsScan, allowedIn])
      fun ref hd ha => ?_
    cases hch : channelOperand c with
    | none => exact .answer rfl _ _ rfl
    | some ch =>
      refine execShape_of_bus hd (by simp) rfl ha (busyTest_bus ref ch s) (.inl (by decide)) (by simp)
        (fun _ => busyTest_hit ref ch s) fun b u => ?_
      unfold answerBusy
      split <;> exact ⟨_, _, rfl⟩
  case sweep b m =>
    refine execShape_of_withDevice rfl (by intro f; cases f <;> simp [Fsm.allowsScan, allowedIn])
      fun ref hd ha => ?_
    exact execShape_of_bus hd (by simp) rfl ha (sweepOnce_bus ref _ _ s) (.inl (by decide)) (by simp)
      (fun h => by cases h) fun _ u => ⟨_, _, rfl⟩
  case cycle =>
    refine execShape_of_withDevice rfl (by intro f; cases f <;> simp [Fsm.allowsScan, allowedIn])
      fun ref hd ha => ?_
    refine execShape_of_bus hd (by simp) rfl ha (sweepRepeat_bus ref _ _ _ s.clearHits) ?_ (by simp)
      (fun h => by cases h) fun _ u => ⟨_, _, rfl⟩
    cases hw : s.cfg.wellFormed with
    | false => exact .inr rfl
    | true =>
      simp only [Cfg.wellFormed, Cfg.sweepsOk, Bool.and_eq_true, decide_eq_true_eq] at hw
      exact .inl (by have := hw.1.2; omega)
  case rFrame a =>
    unfold frameToDevice
    cases hd : s.devref with
    | none => exact .noDevice rfl hd rfl
    | some ref =>
      exact execShape_of_frame hd rfl (regRead_bus ref a s) (regRead_hit ref a s)
        fun r u => ⟨_, rfl⟩
  case wFrame a v =>
    unfold frameToDevice
    cases hd : s.devref with
    | none => exact .noDevice rfl hd rfl
    | some ref =>
      exact execShape_of_frame hd rfl (regWrite_bus ref a v s) (regWrite_hit ref a v s)
        fun r u => ⟨_, rfl⟩

theorem exec_shape_of_next {i : Instr} {s t : State} (h : exec i s = .next t) : ExecShape i s t := by
  obtain ⟨u, hu, hs⟩ := exec_shape i s
  rw [hu] at h
  injection h with h
  exact h ▸ hs

/-! ### What a step can do -/

/-- Everything a step of an instance can have done. -/
inductive StepShape (s t : State) : Prop where
  /-- The reset. -/
  | reset (h : s.hostIn.head? = some .reset) (ht : t = s.hostMoved.applyReset)
  /-- Only the host moved: the instance is busy, has nothing to do, or waits for its response. -/
  | waits (h : s.hostIn.head? ≠ some .reset) (ht : t = s.hostMoved)
  /-- A pair of bytes that is no frame was dropped. -/
  | drops (h : s.hostIn.head? ≠ some .reset) (hb : s.busy = false) (ht : t = s.hostMoved.takeFrame)
  /-- An ILLEGAL word was answered. -/
  | illegal (h : s.hostIn.head? ≠ some .reset) (hb : s.busy = false)
      (ht : t = illegalCommand s.hostMoved.accept)
  /-- A frame was run. -/
  | frame (h : s.hostIn.head? ≠ some .reset) (hb : s.busy = false) (i : Instr)
      (hi : isCommand i = false) (ht : exec i s.hostMoved.takeFrame = .next t)
  /-- A command was run. -/
  | command (h : s.hostIn.head? ≠ some .reset) (hb : s.busy = false) (i : Instr)
      (hi : isCommand i = true) (ht : exec i s.hostMoved.accept = .next t)

theorem isCommand_of_decodeCommand {w : Word} {i : Instr} (h : decodeCommand w = .ok i) :
    isCommand i = true := by
  unfold decodeCommand commandOf at h
  split at h
  · split at h <;> first | (injection h with h; subst h; rfl) | cases h
  · cases h

theorem isCommand_of_decodeFrame {tx0 tx1 : Byte} {i : Instr} (h : decodeFrame tx0 tx1 = .ok i) :
    isCommand i = false := by
  unfold decodeFrame at h
  split at h
  · injection h with h; subst h; rfl
  · split at h
    · injection h with h; subst h; rfl
    · cases h

/-- A step that answers a next state is one of these, of a well-formed instance. -/
theorem step_shape {s t : State} (h : step s = .next t) : s.cfg.wellFormed = true ∧ StepShape s t := by
  unfold step at h
  split at h
  swap
  · cases h
  refine ⟨‹_›, ?_⟩
  split at h
  · injection h with h; exact .reset ‹_› h.symm
  rename_i hr
  unfold runPort at h
  split at h
  · injection h with h; exact .waits hr h.symm
  rename_i hb
  have hb : s.busy = false := by simpa using hb
  split at h
  · rename_i tx0 tx1 _
    unfold runFrame at h
    split at h
    · exact .frame hr hb _ (isCommand_of_decodeFrame ‹_›) h
    · injection h with h; exact .drops hr hb h.symm
  · split at h
    · injection h with h; exact .waits hr h.symm
    · split at h
      · injection h with h; exact .waits hr h.symm
      · unfold runCommand at h
        split at h
        · exact .command hr hb _ (isCommand_of_decodeCommand ‹_›) h
        · injection h with h; exact .illegal hr hb h.symm

end Sys2Proof.Machine
end

