-- ==== Sys2Proof/Laws/Window.lean ====
section
/-! SUPPORT. The channels of a window are the numbers from its start on (42_band_scanner.md R182). -/

namespace Sys2Proof.Machine

/-- The numbers of a range between two bounds, in order. -/
theorem range_filter_between (b e : Nat) : ∀ n, e ≤ n →
    (List.range n).filter (fun c => decide (b ≤ c) && decide (c < e)) = List.range' b (e - b) := by
  intro n
  induction n generalizing e with
  | zero => intro h; obtain rfl : e = 0 := by omega
            simp
  | succ n ih =>
    intro h
    rw [List.range_succ, List.filter_append]
    by_cases hn : e ≤ n
    · rw [ih e hn]
      simp [show ¬ n < e by omega]
    · obtain rfl : e = n + 1 := by omega
      have h1 : (List.range n).filter (fun c => decide (b ≤ c) && decide (c < n + 1)) =
          (List.range n).filter (fun c => decide (b ≤ c) && decide (c < n)) := by
        refine List.filter_congr fun c hc => ?_
        have := List.mem_range.1 hc
        simp [this, Nat.lt_succ_of_lt this]
      rw [h1, ih n le_rfl]
      by_cases hb : b ≤ n
      · rw [show n + 1 - b = (n - b) + 1 by omega, List.range'_concat]
        simp [hb]
      · simp [hb, show n + 1 - b = 0 by omega, show n - b = 0 by omega]

theorem windowEnd_le (start count : Nat) : windowEnd start count ≤ 126 := Nat.min_le_right _ _

theorem windowSize_eq (start count : Nat) :
    windowSize start count = min (start + count) 126 - start := by
  unfold windowSize windowEnd Config.numChannels
  split <;> omega

/-- The channels of a window, as numbers. -/
theorem windowChannels_val (start count : Nat) :
    (windowChannels start count).map (·.val) = List.range' start (windowSize start count) := by
  have h : (windowChannels start count).map (·.val) =
      ((List.finRange 126).map (·.val)).filter
        (fun c => decide (start ≤ c) && decide (c < windowEnd start count)) := by
    rw [windowChannels, List.filter_map]; rfl
  rw [h, List.map_coe_finRange_eq_range, range_filter_between _ _ _ (windowEnd_le start count),
    windowSize_eq]
  rfl

@[simp] theorem windowChannels_length (start count : Nat) :
    (windowChannels start count).length = windowSize start count := by
  simpa using congrArg List.length (windowChannels_val start count)

theorem windowChannels_getElem (start count j : Nat)
    (h : j < (windowChannels start count).length) :
    (windowChannels start count)[j].val = start + j := by
  have := List.getElem_of_eq (windowChannels_val start count) (i := j) (by simpa using h)
  simpa using this

end Sys2Proof.Machine
end

