-- ==== Sys2Proof/Laws/Sweep.lean ====
section
/-! SUPPORT. The busy test, the sweep and the repeated sweep, every call answered: the one state each
ends in, field by field (42_band_scanner.md R180, R183, R185, R186, R188). -/

namespace Sys2Proof.Machine

/-- The state after an answered busy test (R180). -/
def tested (ref : DevRef) (c : Channel) (s : State) : State :=
  wasRead ref s.cfg.addrRpd
    ((wrote ref s.cfg.addrRfCh (channelByte c) s).emit (.delay Config.chSettleUs))

theorem busyTest_of_fair {ref : DevRef} {c : Channel} {s : State} (h : s.Fair) :
    busyTest ref c s = .done (busyOf (readResult (s.nthXfer 1))) (tested ref c s) := by
  have h1 := wrote_fair (ref := ref) (a := s.cfg.addrRfCh) (v := channelByte c) h
  have h2 : ((wrote ref s.cfg.addrRfCh (channelByte c) s).emit (.delay Config.chSettleUs)).Fair := h1
  simp only [busyTest, regWrite_of_fair h, callDelay_of_fair h1, regRead_of_fair h2, Ran.bind_done,
    State.nthXfer_emit, nthXfer_wrote]
  rfl

@[simp] theorem busyOf_busy (a : XferAnswer) : (busyOf (readResult a)).busy = a.isBusy := by
  cases a <;> rfl

@[simp] theorem busyOf_failed (a : XferAnswer) : (busyOf (readResult a)).failed = a.isErr := by
  cases a <;> rfl

/-- What a sequence of answered busy tests leaves, field by field, `2 * n` transfers long. -/
structure Swept (ref : DevRef) (s t : State) (es : List Event) (n : Nat) : Prop where
  keeps       : KeepsBringup s t
  resp        : t.resp = s.resp
  busy        : t.busy = s.busy
  respWaiting : t.respWaiting = s.respWaiting
  responses   : t.responses = s.responses
  events      : t.events = s.events ++ es
  wrFail      : t.wrFail = (s.wrFail || (List.range n).any fun j => (s.nthXfer (2 * j)).isErr)
  rdFail      : t.rdFail = (s.rdFail || (List.range n).any fun j => (s.nthXfer (2 * j + 1)).isErr)
  answers     : ∀ m, t.nthXfer m = s.nthXfer (2 * n + m)

theorem Swept.refl (ref : DevRef) (s : State) : Swept ref s s [] 0 where
  keeps := ⟨rfl, rfl, rfl, rfl, rfl, rfl, rfl, rfl, rfl, rfl, rfl⟩
  resp := rfl
  busy := rfl
  respWaiting := rfl
  responses := rfl
  events := (List.append_nil _).symm
  wrFail := by simp
  rdFail := by simp
  answers m := by simp

theorem any_range_add (p : Nat → Bool) (n m : Nat) :
    (List.range (n + m)).any p = ((List.range n).any p || (List.range m).any fun j => p (n + j)) := by
  rw [List.range_add, List.any_append, List.any_map]; rfl

theorem Swept.trans {ref : DevRef} {s t u : State} {es fs : List Event} {n m : Nat}
    (h : Swept ref s t es n) (k : Swept ref t u fs m) : Swept ref s u (es ++ fs) (n + m) where
  keeps :=
    ⟨k.keeps.cfg.trans h.keeps.cfg, k.keeps.fsm.trans h.keeps.fsm,
      k.keeps.devref.trans h.keeps.devref, k.keeps.attachFail.trans h.keeps.attachFail,
      k.keeps.ce.trans h.keeps.ce, k.keeps.cmdIn.trans h.keeps.cmdIn,
      k.keeps.hostIn.trans h.keeps.hostIn, k.keeps.frameIn.trans h.keeps.frameIn,
      k.keeps.frameOut.trans h.keeps.frameOut, k.keeps.attachIn.trans h.keeps.attachIn,
      k.keeps.hangAfter.trans h.keeps.hangAfter⟩
  resp := k.resp.trans h.resp
  busy := k.busy.trans h.busy
  respWaiting := k.respWaiting.trans h.respWaiting
  responses := k.responses.trans h.responses
  events := by rw [k.events, h.events, List.append_assoc]
  wrFail := by
    rw [k.wrFail, h.wrFail, any_range_add, Bool.or_assoc]
    simp [h.answers, Nat.mul_add]
  rdFail := by
    rw [k.rdFail, h.rdFail, any_range_add, Bool.or_assoc]
    simp [h.answers, Nat.mul_add, Nat.add_assoc]
  answers l := by rw [k.answers, h.answers, ← Nat.add_assoc, Nat.mul_add]

theorem tested_swept (ref : DevRef) (c : Channel) (s : State) :
    Swept ref s (tested ref c s) (busyTestEvents s.cfg ref c) 1 where
  keeps := ⟨rfl, rfl, rfl, rfl, rfl, rfl, rfl, rfl, rfl, rfl, rfl⟩
  resp := rfl
  busy := rfl
  respWaiting := rfl
  responses := rfl
  events := by
    simp [tested, wasRead, wrote, State.emit, busyTestEvents, readByte, writeByte, frameByte,
      channelByte, Config.chSettleUs, State.popXfer]
  wrFail := by simp [tested, wasRead, wrote]
  rdFail := by
    change (s.rdFail || (((wrote ref s.cfg.addrRfCh (channelByte c) s).emit
      (.delay Config.chSettleUs)).nthXfer 0).isErr) = _
    simp
  answers m := by simp [tested, Nat.add_comm 2 m]

@[simp] theorem tested_hit (ref : DevRef) (c : Channel) (s : State) :
    (tested ref c s).hit = s.hit := rfl

theorem countIfBusy_swept (ref : DevRef) (c : Channel) (b : BusyResult) (s : State) :
    Swept ref s (countIfBusy c b s) [] 0 := by
  unfold countIfBusy
  split
  · exact ⟨⟨rfl, rfl, rfl, rfl, rfl, rfl, rfl, rfl, rfl, rfl, rfl⟩, rfl, rfl, rfl, rfl,
      (List.append_nil _).symm, by simp [State.countHit], by simp [State.countHit],
      fun m => by rw [Nat.mul_zero, Nat.zero_add]; exact State.nthXfer_congr rfl rfl rfl m⟩
  · exact .refl ref s

/-- The state after one channel of a sweep, answered: the test, and the count if it was busy. -/
def tallied (ref : DevRef) (c : Channel) (s : State) : State :=
  countIfBusy c (busyOf (readResult (s.nthXfer 1))) (tested ref c s)

theorem tallied_swept (ref : DevRef) (c : Channel) (s : State) :
    Swept ref s (tallied ref c s) (busyTestEvents s.cfg ref c) 1 := by
  simpa [tallied] using (tested_swept ref c s).trans (countIfBusy_swept ref c _ _)

theorem tallied_fair {ref : DevRef} {c : Channel} {s : State} (h : s.Fair) :
    (tallied ref c s).Fair := (tallied_swept ref c s).keeps.hangAfter.trans h

theorem tallied_hit (ref : DevRef) (c : Channel) (s : State) (d : Channel) :
    (tallied ref c s).hit[d] =
      if d = c ∧ (s.nthXfer 1).isBusy = true then satInc s.hit[d] else s.hit[d] := by
  change (tallied ref c s).readHit d = _
  by_cases hb : (s.nthXfer 1).isBusy = true
  · simp only [tallied, countIfBusy, busyOf_busy, hb, if_true, State.readHit_countHit, and_true]
    split
    · subst d; rfl
    · rfl
  · simp [tallied, countIfBusy, hb, State.readHit]

/-- The counters after a channel and then `k` more, from the counters after the `k`. -/
theorem hits_after_tallied {ref : DevRef} {c : Channel} {s t : State} {b k : Nat} (hcb : c.val = b)
    (h : ∀ d : Channel, t.hit[d] =
      if b + 1 ≤ d.val ∧ d.val < b + 1 + k ∧
        ((tallied ref c s).nthXfer (2 * (d.val - (b + 1)) + 1)).isBusy = true
      then satInc (tallied ref c s).hit[d] else (tallied ref c s).hit[d]) (d : Channel) :
    t.hit[d] =
      if b ≤ d.val ∧ d.val < b + (k + 1) ∧ (s.nthXfer (2 * (d.val - b) + 1)).isBusy = true
      then satInc s.hit[d] else s.hit[d] := by
  rw [h d, tallied_hit]
  simp only [(tallied_swept ref c s).answers]
  by_cases hd : d = c
  · subst hd
    rw [if_neg (by omega)]
    simp [hcb]
  · have hne : d.val ≠ b := fun e => hd (Fin.ext (e.trans hcb.symm))
    simp only [hd, false_and, if_false]
    by_cases hlt : b + 1 ≤ d.val
    · have hidx : 2 * 1 + (2 * (d.val - (b + 1)) + 1) = 2 * (d.val - b) + 1 := by omega
      rw [hidx]
      congr 1
      simp only [eq_iff_iff]
      constructor <;> rintro ⟨_, _, h⟩ <;> exact ⟨by omega, by omega, h⟩
    · rw [if_neg (by omega), if_neg (by omega)]

/-- The channels after the first, still consecutive. -/
theorem consecutive_tail {c : Channel} {cs : List Channel} {b : Nat}
    (hc : ∀ j (h : j < (c :: cs).length), (c :: cs)[j].val = b + j) (j : Nat) (h : j < cs.length) :
    cs[j].val = b + 1 + j := by
  have := hc (j + 1) (by simpa using h)
  simpa [Nat.add_assoc, Nat.add_comm 1 j] using this

/-- A sweep of consecutive channels from `b` on: each counter found busy goes up, no other moves. -/
theorem sweepChannels_of_fair {ref : DevRef} (cs : List Channel) :
    ∀ {b : Nat} {s : State}, s.Fair → (∀ j (h : j < cs.length), cs[j].val = b + j) →
      ∃ t, sweepChannels ref cs s = .done cs.length t ∧
        Swept ref s t (cs.flatMap (busyTestEvents s.cfg ref)) cs.length ∧
        ∀ d : Channel, t.hit[d] =
          if b ≤ d.val ∧ d.val < b + cs.length ∧ (s.nthXfer (2 * (d.val - b) + 1)).isBusy = true
          then satInc s.hit[d] else s.hit[d] := by
  induction cs with
  | nil =>
    intro b s _ _
    refine ⟨s, rfl, by simpa using Swept.refl ref s, fun d => ?_⟩
    rw [if_neg]; simp; omega
  | cons c cs ih =>
    intro b s hf hc
    have hu := tallied_swept ref c s
    obtain ⟨t, ht, hsw, hhit⟩ := ih (tallied_fair (ref := ref) (c := c) hf) (consecutive_tail hc)
    refine ⟨t, ?_, ?_, hits_after_tallied (hc 0 (Nat.zero_lt_succ _)) hhit⟩
    · simp only [sweepChannels, busyTest_of_fair hf, Ran.bind_done]
      rw [← tallied, ht]
      rfl
    · have := hu.trans hsw
      rw [hu.keeps.cfg, Nat.add_comm 1] at this
      exact this

/-- One sweep of a window (R183). -/
theorem sweepOnce_of_fair {ref : DevRef} {b m : Nat} {s : State} (hf : s.Fair) :
    ∃ t, sweepOnce ref b m s = .done (windowSize b m) t ∧
      Swept ref s t ((windowChannels b m).flatMap (busyTestEvents s.cfg ref)) (windowSize b m) ∧
      ∀ d : Channel, t.hit[d] =
        if b ≤ d.val ∧ d.val < windowEnd b m ∧ (s.nthXfer (2 * (d.val - b) + 1)).isBusy = true
        then satInc s.hit[d] else s.hit[d] := by
  obtain ⟨t, ht, hsw, hhit⟩ :=
    sweepChannels_of_fair (ref := ref) (windowChannels b m) hf (windowChannels_getElem b m)
  rw [windowChannels_length] at ht hsw hhit
  refine ⟨t, ht, hsw, fun d => ?_⟩
  rw [hhit d]
  congr 1
  have h1 := windowSize_eq b m
  have h2 : windowEnd b m = min (b + m) 126 := rfl
  simp only [eq_iff_iff]
  constructor <;> rintro ⟨_, _, h⟩ <;> exact ⟨by omega, by omega, h⟩

/-- `k` sweeps of a window (R188): a counter of the window goes up by the number of sweeps that
found its channel busy, as long as that stays below its last value. -/
theorem sweepRepeat_of_fair {ref : DevRef} {b m : Nat} (k : Nat) :
    ∀ {s : State}, s.Fair → (∀ d : Channel, s.hit[d].toNat + k ≤ 65535) →
      ∃ t, sweepRepeat ref b m k s = .done () t ∧
        Swept ref s t
          (List.replicate k ((windowChannels b m).flatMap (busyTestEvents s.cfg ref))).flatten
          (k * windowSize b m) ∧
        ∀ d : Channel, t.hit[d].toNat =
          s.hit[d].toNat + if b ≤ d.val ∧ d.val < windowEnd b m then
            (List.range k).countP fun j =>
              (s.nthXfer (2 * (j * windowSize b m + (d.val - b)) + 1)).isBusy
          else 0 := by
  induction k with
  | zero =>
    intro s _ _
    exact ⟨s, rfl, by simpa using Swept.refl ref s, fun d => by simp⟩
  | succ k ih =>
    intro s hf hk
    obtain ⟨u, hu, hsw, hhit⟩ := sweepOnce_of_fair (ref := ref) (b := b) (m := m) hf
    have huk : ∀ d : Channel, u.hit[d].toNat + k ≤ 65535 := fun d => by
      have := hk d
      rw [hhit d]
      split
      · rw [satInc_toNat]; omega
      · omega
    obtain ⟨t, ht, hsw', hhit'⟩ := ih (hsw.keeps.hangAfter.trans hf) huk
    refine ⟨t, by simp only [sweepRepeat, hu, Ran.bind_done, ht], ?_, fun d => ?_⟩
    · have := hsw.trans hsw'
      rw [hsw.keeps.cfg, Nat.add_comm (windowSize b m), ← Nat.succ_mul] at this
      simpa [List.replicate_succ] using this
    · rw [hhit' d, hhit d]
      have hkd := hk d
      by_cases hw : b ≤ d.val ∧ d.val < windowEnd b m
      · rw [if_pos hw, if_pos hw, List.range_succ_eq_map, List.countP_cons, List.countP_map]
        have hidx : ∀ j, 2 * ((j + 1) * windowSize b m + (d.val - b)) + 1 =
            2 * windowSize b m + (2 * (j * windowSize b m + (d.val - b)) + 1) := fun j => by ring
        have hcount : (List.range k).countP
              ((fun j => (s.nthXfer (2 * (j * windowSize b m + (d.val - b)) + 1)).isBusy) ∘ Nat.succ) =
            (List.range k).countP fun j =>
              (u.nthXfer (2 * (j * windowSize b m + (d.val - b)) + 1)).isBusy := by
          refine List.countP_congr fun j _ => ?_
          simp only [Function.comp_apply, Nat.succ_eq_add_one, hidx, hsw.answers]
        rw [hcount]
        simp only [Nat.zero_mul, Nat.zero_add, hw.1, hw.2, true_and]
        split
        · rw [satInc_toNat]; omega
        · omega
      · rw [if_neg hw, if_neg hw, if_neg (fun h => hw ⟨h.1, h.2.1⟩)]

end Sys2Proof.Machine
end

