-- ==== Sys2Proof/Laws/Hang.lean ====
section
/-! SUPPORT. A call that is never answered (70_reset_and_hazards.md R253; log 3): how a sequence of
calls with a hang in it stands to the same sequence with every call answered. -/

namespace Sys2Proof.Machine

section
variable (s : State) (n : Nat)
@[simp] theorem State.fairly_hangAfter : s.fairly.hangAfter = none := rfl
@[simp] theorem State.fairly_events : s.fairly.events = s.events := rfl
@[simp] theorem State.fairly_busy : s.fairly.busy = s.busy := rfl
@[simp] theorem State.fairly_cfg : s.fairly.cfg = s.cfg := rfl
@[simp] theorem State.fairly_hit : s.fairly.hit = s.hit := rfl
@[simp] theorem State.fairly_nthXfer (k : Nat) : s.fairly.nthXfer k = s.nthXfer k :=
  State.nthXfer_congr rfl rfl rfl k
@[simp] theorem State.hangingAfter_hangAfter : (s.hangingAfter n).hangAfter = some n := rfl
@[simp] theorem State.hangingAfter_events : (s.hangingAfter n).events = s.events := rfl
@[simp] theorem State.hangingAfter_busy : (s.hangingAfter n).busy = s.busy := rfl
@[simp] theorem State.hangingAfter_cfg : (s.hangingAfter n).cfg = s.cfg := rfl
@[simp] theorem State.hangingAfter_hit : (s.hangingAfter n).hit = s.hit := rfl
@[simp] theorem State.hangingAfter_nthXfer (k : Nat) : (s.hangingAfter n).nthXfer k = s.nthXfer k :=
  State.nthXfer_congr rfl rfl rfl k
@[simp] theorem State.hangingAfter_fairly : (s.hangingAfter n).fairly = s.fairly := rfl
end

theorem State.fairly_of_fair {s : State} (h : s.Fair) : s.fairly = s := by
  cases s; simp_all [State.fairly, State.Fair]

theorem State.hangingAfter_of_eq {s : State} {n : Nat} (h : s.hangAfter = some n) :
    s.hangingAfter n = s := by
  cases s; simp_all [State.hangingAfter]

@[simp] theorem blockingCalls_append (es fs : List Event) :
    blockingCalls (es ++ fs) = blockingCalls es + blockingCalls fs := List.countP_append

theorem FlagsKept.refl (s : State) : FlagsKept s s := ⟨id, id⟩

theorem FlagsKept.trans {s t u : State} (h : FlagsKept s t) (k : FlagsKept t u) : FlagsKept s u :=
  ⟨k.rdFail ∘ h.rdFail, k.wrFail ∘ h.wrFail⟩

/-- The run of a sequence of calls with every call answered, and how the run with the call after `n`
more never answered stands to it: as far as the sequence makes at most `n` calls the two agree;
otherwise the second stops at its call `n + 1`, its events the first ones of the other's, its
failure flags among the other's. -/
def Cuts {α : Type} (g : State → Ran α) : Prop :=
  ∀ s : State, s.Fair → ∃ a u es,
    g s = .done a u ∧ u.Fair ∧ FlagsKept s u ∧ u.events = s.events ++ es ∧
    ∀ n,
      (blockingCalls es ≤ n → g (s.hangingAfter n) = .done a (u.hangingAfter (n - blockingCalls es))) ∧
      (n < blockingCalls es → ∃ t fs, g (s.hangingAfter n) = .hung t ∧ t.busy = true ∧ t.Fair ∧ FlagsKept t u ∧
        t.events = s.events ++ fs ∧ fs <+: es ∧ blockingCalls fs = n + 1 ∧
        ∃ e, fs.getLast? = some e ∧ e.blocking = true)

/-- A step of no blocking call that does the same whether or not a later call hangs. -/
theorem Cuts.pure {α : Type} (a : State → α) (f : State → State) (es : State → List Event)
    (h0 : ∀ s, blockingCalls (es s) = 0) (he : ∀ s, (f s).events = s.events ++ es s)
    (hf : ∀ s, s.Fair → (f s).Fair) (ha : ∀ s n, a (s.hangingAfter n) = a s)
    (hn : ∀ s n, f (s.hangingAfter n) = (f s).hangingAfter n) (hk : ∀ s, FlagsKept s (f s)) :
    Cuts fun s => .done (a s) (f s) := fun s hs =>
  ⟨a s, f s, es s, rfl, hf s hs, hk s, he s, fun n =>
    ⟨fun _ => by simp only [ha, hn, h0]; rfl, fun h => by simp [h0] at h⟩⟩

/-- A step of no event that does the same whether or not a later call hangs. -/
theorem Cuts.quiet {α : Type} (a : State → α) (f : State → State)
    (he : ∀ s, (f s).events = s.events) (hf : ∀ s, s.Fair → (f s).Fair)
    (ha : ∀ s n, a (s.hangingAfter n) = a s)
    (hn : ∀ s n, f (s.hangingAfter n) = (f s).hangingAfter n) (hk : ∀ s, FlagsKept s (f s)) :
    Cuts fun s => .done (a s) (f s) :=
  .pure a f (fun _ => []) (fun _ => rfl) (fun s => by simp [he]) hf ha hn hk

theorem Cuts.ret {α : Type} (a : α) : Cuts fun s => .done a s :=
  .quiet (fun _ => a) id (fun _ => rfl) (fun _ h => h) (fun _ _ => rfl) (fun _ _ => rfl) .refl

/-- One sequence after another. -/
theorem Cuts.bind {α β : Type} {g : State → Ran α} {f : α → State → Ran β} (hg : Cuts g)
    (hf : ∀ a, Cuts (f a)) : Cuts fun s => (g s).bind f := fun s hs => by
  obtain ⟨a, u, es, h1, hu, hk, he, hn⟩ := hg s hs
  obtain ⟨b, v, fs, k1, hv, kk, ke, kn⟩ := hf a u hu
  refine ⟨b, v, es ++ fs, by simp only [h1, Ran.bind_done, k1], hv,
    hk.trans kk, by rw [ke, he, List.append_assoc], fun n => ⟨fun h => ?_, fun h => ?_⟩⟩
  · rw [blockingCalls_append] at h
    simp only [(hn n).1 (by omega), Ran.bind_done, (kn _).1 (show _ ≤ n - blockingCalls es by omega)]
    rw [blockingCalls_append, Nat.sub_sub]
  · rw [blockingCalls_append] at h
    by_cases hle : blockingCalls es ≤ n
    · obtain ⟨t, gs, ht, tb, tn, tf, te, tp, tc, tl⟩ :=
        (kn (n - blockingCalls es)).2 (by omega)
      obtain ⟨e, hl, hbl⟩ := tl
      refine ⟨t, es ++ gs, by simp only [(hn n).1 hle, Ran.bind_done, ht], tb, tn, tf,
        by rw [te, he, List.append_assoc], (List.prefix_append_right_inj es).2 tp,
        by rw [blockingCalls_append, tc]; omega, e, ?_, hbl⟩
      rw [List.getLast?_append, hl]; rfl
    · obtain ⟨t, gs, ht, tb, tn, tf, te, tp, tc, tl⟩ := (hn n).2 (by omega)
      exact ⟨t, gs, by simp only [ht, Ran.bind_hung], tb, tn, tf.trans kk, te,
        tp.trans (List.prefix_append es fs), tc, tl⟩

/-- Waiting for the answer to a blocking call just issued. -/
theorem awaitAnswer_cuts (e : State → Event) (hb : ∀ s, (e s).blocking = true)
    (he : ∀ s n, e (s.hangingAfter n) = e s) : Cuts fun s => awaitAnswer (s.emit (e s)) := fun s hs => by
  have h1 : blockingCalls [e s] = 1 := by simp [blockingCalls, hb]
  refine ⟨(), s.emit (e s), [e s], awaitAnswer_of_fair (s := s.emit (e s)) hs, hs,
    ⟨id, id⟩, rfl,
    fun n => ⟨fun h => ?_, fun h => ?_⟩⟩
  · rw [h1] at h ⊢
    rcases awaitAnswer_cases ((s.hangingAfter n).emit (e (s.hangingAfter n))) with ⟨h0, _⟩ | ⟨_, h2⟩
    · have : some n = some 0 := h0
      injection this; omega
    · exact h2.trans (by rw [he]; rfl)
  · obtain rfl : n = 0 := by omega
    refine ⟨_, [e s], awaitAnswer_of_hang (s := (s.hangingAfter 0).emit (e (s.hangingAfter 0))) rfl,
      rfl, rfl, ⟨id, id⟩, ?_, List.prefix_rfl, h1, e s, rfl, hb s⟩
    simp [State.stuck, State.emit, he]

/-- Ending a command. -/
theorem finish_cuts (k : Code) (d : State → Half) (hd : ∀ s n, d (s.hangingAfter n) = d s) :
    Cuts fun s => finish k (d s) s :=
  .quiet (fun _ => ()) (fun s => s.respond k (d s)) (fun _ => rfl) (fun _ h => h) (fun _ _ => rfl)
    (fun s n => by rw [hd]; rfl) fun _ => ⟨id, id⟩

theorem callXfer_cuts (ref : DevRef) (tx0 : State → Byte) (tx1 : State → Byte)
    (h0 : ∀ s n, tx0 (s.hangingAfter n) = tx0 s) (h1 : ∀ s n, tx1 (s.hangingAfter n) = tx1 s) :
    Cuts fun s => callXfer ref (tx0 s) (tx1 s) s :=
  (awaitAnswer_cuts (fun s => .xfer ref (tx0 s) (tx1 s)) (fun _ => rfl)
    fun s n => by rw [h0, h1]).bind fun _ =>
      .quiet (fun s => s.xferAnswer) State.popXfer (fun _ => rfl) (fun _ h => h)
        (fun s n => by simp [State.xferAnswer_eq]) (fun _ _ => rfl) fun _ => ⟨id, id⟩

theorem callDelay_cuts (us : Nat) : Cuts (callDelay us) :=
  awaitAnswer_cuts (fun _ => .delay us) (fun _ => rfl) fun _ _ => rfl

theorem callAttach_cuts : Cuts callAttach :=
  (awaitAnswer_cuts (fun s => .attachReq s.cfg.busId s.cfg.csLine s.cfg.spiClkHz s.cfg.spiMode)
    (fun _ => rfl) fun _ _ => rfl).bind fun _ =>
      .quiet (fun s => s.attachAnswer) State.popAttach (fun _ => rfl) (fun _ h => h)
        (fun _ _ => State.attachAnswer_congr rfl rfl rfl) (fun _ _ => rfl) fun _ => ⟨id, id⟩

theorem regRead_cuts (ref : DevRef) (a : State → RegAddr)
    (ha : ∀ s n, a (s.hangingAfter n) = a s) : Cuts fun s => regRead ref (a s) s :=
  (callXfer_cuts ref (fun s => readByte (a s)) (fun s => s.cfg.filler) (fun s n => by rw [ha])
    fun _ _ => rfl).bind fun x => by
      cases x with
      | ok rx0 rx1 => exact .ret (ReadResult.value rx1)
      | err =>
        exact .quiet (fun _ => ReadResult.failed) State.flagRdFail (fun _ => rfl) (fun _ h => h)
          (fun _ _ => rfl) (fun _ _ => rfl) fun _ => ⟨fun _ => rfl, id⟩

theorem regWrite_cuts (ref : DevRef) (a : State → RegAddr) (v : State → Byte)
    (ha : ∀ s n, a (s.hangingAfter n) = a s) (hv : ∀ s n, v (s.hangingAfter n) = v s) :
    Cuts fun s => regWrite ref (a s) (v s) s :=
  (callXfer_cuts ref (fun s => writeByte (a s)) v (fun s n => by rw [ha]) hv).bind fun x => by
      cases x with
      | ok rx0 rx1 => exact .ret ()
      | err =>
        exact .quiet (fun _ => ()) State.flagWrFail (fun _ => rfl) (fun _ h => h)
          (fun _ _ => rfl) (fun _ _ => rfl) fun _ => ⟨id, fun _ => rfl⟩

theorem busyTest_cuts (ref : DevRef) (c : Channel) : Cuts (busyTest ref c) :=
  (regWrite_cuts ref (fun s => s.cfg.addrRfCh) (fun _ => channelByte c) (fun _ _ => rfl)
    fun _ _ => rfl).bind fun _ => (callDelay_cuts Config.chSettleUs).bind fun _ =>
      (regRead_cuts ref (fun s => s.cfg.addrRpd) fun _ _ => rfl).bind fun r =>
        .ret (busyOf r)

theorem countIfBusy_hangingAfter (c : Channel) (b : BusyResult) (s : State) (n : Nat) :
    countIfBusy c b (s.hangingAfter n) = (countIfBusy c b s).hangingAfter n := by
  unfold countIfBusy; split <;> rfl

/-- A step of no call, then a sequence. -/
theorem Cuts.after {α : Type} {g : State → Ran α} (hg : Cuts g) (f : State → State)
    (he : ∀ s, (f s).events = s.events) (hf : ∀ s, s.Fair → (f s).Fair)
    (hn : ∀ s n, f (s.hangingAfter n) = (f s).hangingAfter n) (hk : ∀ s, FlagsKept s (f s)) :
    Cuts fun s => g (f s) :=
  (Cuts.quiet (fun _ => ()) f he hf (fun _ _ => rfl) hn hk).bind fun _ => hg

theorem sweepChannels_cuts (ref : DevRef) (cs : List Channel) : Cuts (sweepChannels ref cs) := by
  induction cs with
  | nil => exact .ret 0
  | cons c cs ih =>
    exact (busyTest_cuts ref c).bind fun b =>
      (ih.after (countIfBusy c b)
        (fun _ => by unfold countIfBusy; split <;> rfl)
        (fun _ h => by unfold countIfBusy; split <;> exact h)
        (fun s n => countIfBusy_hangingAfter c b s n)
        fun _ => by unfold countIfBusy; split <;> exact ⟨id, id⟩).bind fun n =>
          .ret (n + 1)

theorem sweepOnce_cuts (ref : DevRef) (b m : Nat) : Cuts (sweepOnce ref b m) :=
  sweepChannels_cuts ref _

theorem sweepRepeat_cuts (ref : DevRef) (b m k : Nat) : Cuts (sweepRepeat ref b m k) := by
  induction k with
  | zero => exact .ret ()
  | succ k ih => exact (sweepOnce_cuts ref b m).bind fun _ => ih

/-- A sequence that makes its last call before the one that is never answered. -/
theorem Cuts.later {α : Type} {g : State → Ran α} (hg : Cuts g) {s u : State} {a : α}
    {es : List Event} {n : Nat} (h : s.Fair) (hr : g s = .done a u) (he : u.events = s.events ++ es)
    (hn : blockingCalls es ≤ n) :
    g (s.hangingAfter n) = .done a (u.hangingAfter (n - blockingCalls es)) := by
  obtain ⟨a', u', es', h1, _, _, he', hc⟩ := hg s h
  rw [hr] at h1
  injection h1 with ha hu
  subst ha hu
  obtain rfl := List.append_cancel_left (he.symm.trans he')
  exact (hc n).1 hn

/-- A sequence that comes to the call that is never answered. -/
theorem Cuts.stops {α : Type} {g : State → Ran α} (hg : Cuts g) {s u : State} {a : α}
    {es : List Event} {n : Nat} (h : s.Fair) (hr : g s = .done a u) (he : u.events = s.events ++ es)
    (hn : n < blockingCalls es) : ∃ t fs, g (s.hangingAfter n) = .hung t ∧ t.busy = true ∧
      t.Fair ∧ FlagsKept t u ∧ t.events = s.events ++ fs ∧ fs <+: es ∧ blockingCalls fs = n + 1 ∧
      ∃ e, fs.getLast? = some e ∧ e.blocking = true := by
  obtain ⟨a', u', es', h1, _, _, he', hc⟩ := hg s h
  rw [hr] at h1
  injection h1 with ha hu
  subst ha hu
  obtain rfl := List.append_cancel_left (he.symm.trans he')
  exact (hc n).2 hn

theorem callXfer_of_hang (ref : DevRef) (tx0 tx1 : Byte) (s : State) :
    callXfer ref tx0 tx1 (s.hangingAfter 0) =
      .hung ((s.hangingAfter 0).emit (.xfer ref tx0 tx1)).stuck := rfl

theorem callDelay_of_hang (us : Nat) (s : State) :
    callDelay us (s.hangingAfter 0) = .hung ((s.hangingAfter 0).emit (.delay us)).stuck := rfl

theorem blockingCalls_delay (us : Nat) : blockingCalls [.delay us] = 1 := rfl

/-! ### The sequencer -/

theorem busyTestEvents_blocking (cfg : Cfg) (ref : DevRef) (c : Channel) :
    blockingCalls (busyTestEvents cfg ref c) = 3 := rfl

/-- A busy test with three calls or more before the one that is never answered. -/
theorem busyTest_of_hang_later {ref : DevRef} {c : Channel} {s : State} (h : s.Fair) {n : Nat}
    (hn : 3 ≤ n) : busyTest ref c (s.hangingAfter n) =
      .done (busyOf (readResult (s.nthXfer 1))) ((tested ref c s).hangingAfter (n - 3)) :=
  (busyTest_cuts ref c).later h (busyTest_of_fair h) (tested_swept ref c s).events hn

/-- A busy test whose call `n + 1` is never answered: only the answered write may set its flag. -/
theorem busyTest_of_hang {ref : DevRef} {c : Channel} {s : State} (h : s.Fair) {n : Nat}
    (hn : n < 3) : ∃ t, busyTest ref c (s.hangingAfter n) = .hung t ∧ t.hit = s.hit ∧
      t.rdFail = s.rdFail ∧
      t.wrFail = (s.wrFail || (List.range ((n + 2) / 3)).any fun j => (s.nthXfer (2 * j)).isErr) := by
  have hw : ∀ m, regWrite ref s.cfg.addrRfCh (channelByte c) (s.hangingAfter (m + 1)) =
      .done () ((wrote ref s.cfg.addrRfCh (channelByte c) s).hangingAfter m) := fun m =>
    (regWrite_cuts ref (fun _ => s.cfg.addrRfCh) (fun _ => channelByte c) (fun _ _ => rfl)
      fun _ _ => rfl).later h (regWrite_of_fair h) rfl (Nat.le_add_left 1 m)
  have hd := (callDelay_cuts Config.chSettleUs).later (n := 1) (wrote_fair (ref := ref)
    (a := s.cfg.addrRfCh) (v := channelByte c) h) (callDelay_of_fair (wrote_fair h)) rfl (le_refl 1)
  obtain rfl | rfl | rfl : n = 0 ∨ n = 1 ∨ n = 2 := by omega
  · have e : busyTest ref c (s.hangingAfter 0) = .hung ((s.hangingAfter 0).emit
        (.xfer ref (writeByte s.cfg.addrRfCh) (channelByte c))).stuck := by
      simp only [busyTest, regWrite, callXfer_of_hang, Ran.bind_hung, State.hangingAfter_cfg]
    exact ⟨_, e, rfl, rfl, (Bool.or_false _).symm⟩
  · have e : busyTest ref c (s.hangingAfter 1) = .hung (((wrote ref s.cfg.addrRfCh (channelByte c)
        s).hangingAfter 0).emit (.delay Config.chSettleUs)).stuck := by
      simp only [busyTest, State.hangingAfter_cfg, hw, Ran.bind_done, callDelay_of_hang,
        Ran.bind_hung]
    exact ⟨_, e, rfl, rfl, congrArg (s.wrFail || ·) (Bool.or_false _).symm⟩
  · have e : busyTest ref c (s.hangingAfter 2) = .hung ((((wrote ref s.cfg.addrRfCh (channelByte c)
        s).emit (.delay Config.chSettleUs)).hangingAfter 0).emit
          (.xfer ref (readByte s.cfg.addrRpd) s.cfg.filler)).stuck := by
      simp only [busyTest, State.hangingAfter_cfg, hw, Ran.bind_done, hd, regRead,
        blockingCalls_delay, Nat.sub_self, callXfer_of_hang, Ran.bind_hung]
      rfl
    exact ⟨_, e, rfl, rfl, congrArg (s.wrFail || ·) (Bool.or_false _).symm⟩

/-- A sweep of consecutive channels from `b` on whose call `n + 1` is never answered: the first
`n / 3` channels are tested and counted, the next one's test stands. -/
theorem sweepChannels_of_hang {ref : DevRef} (cs : List Channel) :
    ∀ {b n : Nat} {s : State}, s.Fair → (∀ j (h : j < cs.length), cs[j].val = b + j) →
      n < 3 * cs.length →
      ∃ t, sweepChannels ref cs (s.hangingAfter n) = .hung t ∧
        t.rdFail = (s.rdFail || (List.range (n / 3)).any fun j => (s.nthXfer (2 * j + 1)).isErr) ∧
        t.wrFail = (s.wrFail || (List.range ((n + 2) / 3)).any fun j => (s.nthXfer (2 * j)).isErr) ∧
        ∀ d : Channel, t.hit[d] =
          if b ≤ d.val ∧ d.val < b + n / 3 ∧ (s.nthXfer (2 * (d.val - b) + 1)).isBusy = true
          then satInc s.hit[d] else s.hit[d] := by
  induction cs with
  | nil => intro b n s _ _ h; simp at h
  | cons c cs ih =>
    intro b n s hf hc hn
    have hcb : c.val = b := hc 0 (Nat.zero_lt_succ _)
    by_cases h3 : n < 3
    · obtain ⟨t, ht, h1, h2, h4⟩ := busyTest_of_hang (ref := ref) (c := c) hf h3
      refine ⟨t, by simp only [sweepChannels, ht, Ran.bind_hung], ?_, h4, fun d => ?_⟩
      · rw [h2, Nat.div_eq_of_lt h3]; simp
      · rw [h1, if_neg]; have := Nat.div_eq_of_lt h3; omega
    obtain ⟨m, rfl⟩ : ∃ m, n = m + 3 := ⟨n - 3, by omega⟩
    have hu := tallied_swept ref c s
    obtain ⟨t, ht, hr, hw, hhit⟩ := ih (n := m) (tallied_fair (ref := ref) (c := c) hf)
      (consecutive_tail hc) (by simp at hn; omega)
    have hdiv : (m + 3) / 3 = 1 + m / 3 := by omega
    have hdiv2 : (m + 3 + 2) / 3 = 1 + (m + 2) / 3 := by omega
    refine ⟨t, ?_, ?_, ?_, fun d => ?_⟩
    · simp only [sweepChannels, busyTest_of_hang_later hf (Nat.le_add_left 3 m), Ran.bind_done,
        countIfBusy_hangingAfter, Nat.add_sub_cancel]
      rw [← tallied, ht]
      rfl
    · rw [hr, hu.rdFail, hdiv, any_range_add, Bool.or_assoc]
      simp [hu.answers, Nat.mul_add, Nat.add_assoc]
    · rw [hw, hu.wrFail, hdiv2, any_range_add, Bool.or_assoc]
      simp [hu.answers, Nat.mul_add]
    · rw [hits_after_tallied hcb hhit d, hdiv, Nat.add_comm 1]

theorem sweepEvents_blocking (cfg : Cfg) (ref : DevRef) (cs : List Channel) :
    blockingCalls (cs.flatMap (busyTestEvents cfg ref)) = 3 * cs.length := by
  induction cs with
  | nil => rfl
  | cons c cs ih =>
    rw [List.flatMap_cons, blockingCalls_append, busyTestEvents_blocking, ih, List.length_cons]
    omega

/-- One sweep of a window whose call `n + 1` is never answered. -/
theorem sweepOnce_of_hang {ref : DevRef} {b m n : Nat} {s : State} (hf : s.Fair)
    (hn : n < 3 * windowSize b m) :
    ∃ t, sweepOnce ref b m (s.hangingAfter n) = .hung t ∧
      t.rdFail = (s.rdFail || (List.range (n / 3)).any fun j => (s.nthXfer (2 * j + 1)).isErr) ∧
      t.wrFail = (s.wrFail || (List.range ((n + 2) / 3)).any fun j => (s.nthXfer (2 * j)).isErr) ∧
      ∀ d : Channel, t.hit[d] =
        if b ≤ d.val ∧ d.val < b + n / 3 ∧ (s.nthXfer (2 * (d.val - b) + 1)).isBusy = true
        then satInc s.hit[d] else s.hit[d] :=
  sweepChannels_of_hang (windowChannels b m) hf (windowChannels_getElem b m) (by simpa using hn)

/-- `k` sweeps of a window whose call `n + 1` is never answered: the first `n / 3` tests count. -/
theorem sweepRepeat_of_hang {ref : DevRef} {b m : Nat} (k : Nat) :
    ∀ {n : Nat} {s : State}, s.Fair → (∀ d : Channel, s.hit[d].toNat + k ≤ 65535) →
      n < 3 * (k * windowSize b m) →
      ∃ t, sweepRepeat ref b m k (s.hangingAfter n) = .hung t ∧
        t.rdFail = (s.rdFail || (List.range (n / 3)).any fun j => (s.nthXfer (2 * j + 1)).isErr) ∧
        t.wrFail = (s.wrFail || (List.range ((n + 2) / 3)).any fun j => (s.nthXfer (2 * j)).isErr) ∧
        ∀ d : Channel, t.hit[d].toNat =
          s.hit[d].toNat + if b ≤ d.val ∧ d.val < windowEnd b m then
            (List.range k).countP fun j =>
              decide (j * windowSize b m + (d.val - b) < n / 3) &&
                (s.nthXfer (2 * (j * windowSize b m + (d.val - b)) + 1)).isBusy
          else 0 := by
  induction k with
  | zero => intro n s _ _ h; simp at h
  | succ k ih =>
    intro n s hf hk hn
    have hwe : windowEnd b m = min (b + m) 126 := rfl
    have hws := windowSize_eq b m
    by_cases h1 : n < 3 * windowSize b m
    · obtain ⟨t, ht, hr, hw, hhit⟩ := sweepOnce_of_hang (ref := ref) hf h1
      refine ⟨t, by simp only [sweepRepeat, ht, Ran.bind_hung], hr, hw, fun d => ?_⟩
      have hkd := hk d
      rw [hhit d, List.range_succ_eq_map, List.countP_cons, List.countP_map]
      have h0 : (List.range k).countP ((fun j =>
          decide (j * windowSize b m + (d.val - b) < n / 3) &&
            (s.nthXfer (2 * (j * windowSize b m + (d.val - b)) + 1)).isBusy) ∘ Nat.succ) = 0 := by
        refine List.countP_eq_zero.2 fun j _ => ?_
        have : ¬ (j + 1) * windowSize b m + (d.val - b) < n / 3 := by
          have : windowSize b m ≤ (j + 1) * windowSize b m := Nat.le_mul_of_pos_left _ (by omega)
          omega
        simp [this]
      rw [h0]
      simp only [Nat.zero_mul, Nat.zero_add, Bool.and_eq_true, decide_eq_true_eq]
      by_cases hc : b ≤ d.val ∧ d.val < b + n / 3 ∧ (s.nthXfer (2 * (d.val - b) + 1)).isBusy = true
      · rw [if_pos hc, if_pos (by omega), if_pos ⟨by omega, hc.2.2⟩,
          satInc_toNat_of_lt (by omega)]
      · rw [if_neg hc]
        split
        · rw [if_neg fun h => hc ⟨by omega, by omega, h.2⟩]
          rfl
        · rfl
    · obtain ⟨u, hu, hsw, hhit⟩ := sweepOnce_of_fair (ref := ref) (b := b) (m := m) hf
      have hbc : blockingCalls ((windowChannels b m).flatMap (busyTestEvents s.cfg ref)) =
          3 * windowSize b m := by rw [sweepEvents_blocking, windowChannels_length]
      obtain ⟨l, rfl⟩ : ∃ l, n = l + 3 * windowSize b m := ⟨n - 3 * windowSize b m, by omega⟩
      have hlater := (sweepOnce_cuts ref b m).later (n := l + 3 * windowSize b m) hf hu hsw.events
        (hbc.le.trans (Nat.le_add_left _ l))
      rw [hbc, Nat.add_sub_cancel] at hlater
      have huk : ∀ d : Channel, u.hit[d].toNat + k ≤ 65535 := fun d => by
        have := hk d
        rw [hhit d]
        split
        · rw [satInc_toNat_of_lt (by omega)]; omega
        · omega
      obtain ⟨t, ht, hr, hw, hhit'⟩ := ih (n := l) (hsw.keeps.hangAfter.trans hf) huk (by
        rw [Nat.succ_mul k] at hn; omega)
      have hdiv : (l + 3 * windowSize b m) / 3 = windowSize b m + l / 3 := by omega
      have hdiv2 : (l + 3 * windowSize b m + 2) / 3 = windowSize b m + (l + 2) / 3 := by omega
      refine ⟨t, by simp only [sweepRepeat, hlater, Ran.bind_done, ht], ?_, ?_, fun d => ?_⟩
      · rw [hr, hsw.rdFail, hdiv, any_range_add, Bool.or_assoc]
        simp [hsw.answers, Nat.mul_add, Nat.add_assoc]
      · rw [hw, hsw.wrFail, hdiv2, any_range_add, Bool.or_assoc]
        simp [hsw.answers, Nat.mul_add]
      · rw [hhit' d, hhit d]
        have hkd := hk d
        by_cases hw : b ≤ d.val ∧ d.val < windowEnd b m
        · rw [if_pos hw, if_pos hw, List.range_succ_eq_map, List.countP_cons, List.countP_map]
          have hidx : ∀ j, 2 * ((j + 1) * windowSize b m + (d.val - b)) + 1 =
              2 * windowSize b m + (2 * (j * windowSize b m + (d.val - b)) + 1) := fun j => by ring
          have hlt : ∀ j, ((j + 1) * windowSize b m + (d.val - b) <
              (l + 3 * windowSize b m) / 3) = (j * windowSize b m + (d.val - b) < l / 3) := fun j => by
            rw [hdiv, Nat.succ_mul, eq_iff_iff]; omega
          simp only [Function.comp_def, Nat.succ_eq_add_one, hidx, hlt, hsw.answers]
          have h0 : d.val - b < (l + 3 * windowSize b m) / 3 := by
            rw [hdiv]; omega
          simp only [h0, decide_true, Bool.true_and, Nat.zero_mul, Nat.zero_add, hw.1, hw.2, true_and]
          split
          · rw [satInc_toNat_of_lt (by omega)]; omega
          · omega
        · rw [if_neg hw, if_neg hw, if_neg (fun h => hw ⟨h.1, h.2.1⟩)]

end Sys2Proof.Machine
end

