-- ==== Sys2Proof/Laws/Lines.lean ====
section
/-! SUPPORT. No line serves two instances of a system (10_state.md R41), so a line names its instance,
and two instances draw their free answers from two streams (log 2). -/

namespace Sys2Proof

theorem linesDistinct_ne {cs : List Cfg} (h : linesDistinct cs = true) {j k : Nat} (hjk : j ≠ k)
    {c d : Cfg} (hc : cs[j]? = some c) (hd : cs[k]? = some d) :
    c.csLine ≠ d.csLine ∧ c.csLine ≠ d.enLine ∧ c.enLine ≠ d.enLine := by
  have hp : cs.Pairwise fun c d => c.csLine ≠ d.csLine ∧ c.csLine ≠ d.enLine ∧
      c.enLine ≠ d.csLine ∧ c.enLine ≠ d.enLine := by
    refine (List.nodup_flatMap.1 (of_decide_eq_true h)).2.imp fun {a b} hab => ?_
    simp only [Function.onFun, List.disjoint_cons_left, List.mem_cons, List.not_mem_nil, or_false,
      not_or] at hab
    exact ⟨hab.1.1, hab.1.2, hab.2.1.1, hab.2.1.2⟩
  obtain ⟨hj, rfl⟩ := List.getElem?_eq_some_iff.1 hc
  obtain ⟨hk, rfl⟩ := List.getElem?_eq_some_iff.1 hd
  rcases Nat.lt_or_gt_of_ne hjk with h1 | h1
  · have := List.pairwise_iff_getElem.1 hp j k hj hk h1
    exact ⟨this.1, this.2.1, this.2.2.2⟩
  · have := List.pairwise_iff_getElem.1 hp k j hk hj h1
    exact ⟨this.1.symm, this.2.2.1.symm, this.2.2.2.symm⟩

end Sys2Proof
end

