-- ==== Sys2Proof/Laws/PerInstr.lean ====
section
/-! SUPPORT. A fact of every instruction as syntax: its encoding matches its row of
spec/opcode_table.json. -/

namespace Sys2Proof.Laws.MatchesRow

/-- The encoded form matches the match and mask columns of the instruction's row. -/
def Statement (i : Instr) : Prop := ∀ filler, (encode filler i).matchesRow (tableRow i) = true

/-- A command word under its row's mask is its OP and RSV bits. -/
theorem commandWord_and_mask (op : BitVec 4) (fa fb fc : Byte) :
    commandWord op fa fb fc &&& 4278190080#32 = op.setWidth 32 <<< 28 := by
  refine BitVec.eq_of_getLsbD_eq fun i hi => ?_
  rw [BitVec.getLsbD_and, getLsbD_commandWord]
  interval_cases i <;> simp

/-- A frame's first byte under its row's mask is its command bits. -/
theorem frameByte_and_mask (cmd : BitVec 3) (a : RegAddr) :
    frameByte cmd a &&& 224#8 = cmd.setWidth 8 <<< 5 := by
  refine BitVec.eq_of_getLsbD_eq fun i hi => ?_
  rw [BitVec.getLsbD_and, getLsbD_frameByte]
  interval_cases i <;> simp

theorem command_matches (op : BitVec 4) (fa fb fc : Byte) (m : Nat)
    (h : (op.setWidth 32 <<< 28 : Word) = BitVec.ofNat 32 m) :
    Encoded.matchesRow (m, 0xFF000000) (.command (commandWord op fa fb fc)) = true := by
  simp [Encoded.matchesRow, commandWord_and_mask, h]

theorem frame_matches (cmd : BitVec 3) (a : RegAddr) (tx1 : Byte) (m : Nat)
    (h : (cmd.setWidth 8 <<< 5 : Byte) = BitVec.ofNat 8 m) :
    Encoded.matchesRow (m, 0xE0) (.frame (frameByte cmd a) tx1) = true := by
  simp [Encoded.matchesRow, frameByte_and_mask, h]

theorem nop : Statement .nop := fun _ => command_matches _ _ _ _ _ rfl
theorem attach : Statement .attach := fun _ => command_matches _ _ _ _ _ rfl
theorem configure : Statement .configure := fun _ => command_matches _ _ _ _ _ rfl
theorem powerUp : Statement .powerUp := fun _ => command_matches _ _ _ _ _ rfl
theorem readReg (a8 : Byte) : Statement (.readReg a8) := fun _ => command_matches _ _ _ _ _ rfl
theorem writeReg (a8 v : Byte) : Statement (.writeReg a8 v) := fun _ => command_matches _ _ _ _ _ rfl
theorem busyTest (c : Byte) : Statement (.busyTest c) := fun _ => command_matches _ _ _ _ _ rfl
theorem sweep (start count : Byte) : Statement (.sweep start count) :=
  fun _ => command_matches _ _ _ _ _ rfl
theorem clearTable : Statement .clearTable := fun _ => command_matches _ _ _ _ _ rfl
theorem cycle : Statement .cycle := fun _ => command_matches _ _ _ _ _ rfl
theorem readHit (c : Byte) : Statement (.readHit c) := fun _ => command_matches _ _ _ _ _ rfl
theorem readStatus : Statement .readStatus := fun _ => command_matches _ _ _ _ _ rfl
theorem rFrame (a : RegAddr) : Statement (.rFrame a) := fun _ => frame_matches _ _ _ _ rfl
theorem wFrame (a : RegAddr) (v : Byte) : Statement (.wFrame a v) := fun _ => frame_matches _ _ _ _ rfl

end Sys2Proof.Laws.MatchesRow
end

