-- ==== Sys2Proof/Tests/Slice0.lean ====
section
/-! SUPPORT. Tests of one decode, one check or one step each, with the expected values of
spec/95_test_vectors.md (the section stands beside each test) or of the rule named; and a witness for
every statement that has hypotheses. -/

open Sys2Proof Sys2Proof.Machine

namespace Sys2Proof.Tests

/-! ### Small states -/

/-- The state an outcome goes on in. -/
def next? : Host.Outcome State Fault Refusal → Option State
  | .next s => some s
  | .fault _ => none
  | .refused _ => none

/-- What an instruction leaves, looked at through some fields. -/
def see {α : Type} (f : State → α) (i : Instr) (s : State) : Option α := (next? (exec i s)).map f

/-- The response and STATUS. -/
def reply (s : State) : Word × Half := (s.resp, statusWord s)

/-- The response, STATUS and the trace. -/
def shown (s : State) : Word × Half × List Event := (s.resp, statusWord s, s.events)

/-- An attach request the transport answers so. -/
def fresh (a : AttachAnswer) : State := { State.reset with attachIn := [a] }

/-- ATTACHED, with these answers to come. -/
def attached (xs : List XferAnswer) : State :=
  { State.reset with fsm := .attached, devref := some ⟨1⟩, ce := .low, xferIn := xs }

/-- CONFIGURED, with these answers to come. -/
def configured (xs : List XferAnswer) : State := { attached xs with fsm := .configured }

/-- The listening state L of 95_test_vectors.md section 0, with these answers to come. -/
def listening (xs : List XferAnswer) : State :=
  { attached xs with fsm := .listening, ce := .high }

/-- The same with another window and number of sweeps. -/
def withWindow (b m k : Nat) (s : State) : State :=
  { s with cfg := { s.cfg with winStart := b, winCount := m, sweepsPerCycle := k } }

/-- An answer whose value is this. -/
def got (v : Byte) : XferAnswer := .ok 0x0E v

/-- Answers of one busy test: the channel write's, then the RPD read's. -/
def test1 (v : Byte) : List XferAnswer := [got 0, got v]

/-- A command presented at the port. -/
def presented (w : Word) (s : State) : State := { s with cmdIn := [w] }

/-! ### Decoding (95 §2.1, §3; 30_encoding.md R104, R111, R112) -/

theorem test_decode_nop : decodeCommand 0x00FFFFFF = .ok .nop := by decide
theorem test_decode_attach : decodeCommand 0x10000000 = .ok .attach := by decide
theorem test_decode_configure : decodeCommand 0x20000000 = .ok .configure := by decide
theorem test_decode_power_up : decodeCommand 0x30000000 = .ok .powerUp := by decide
theorem test_decode_read_reg : decodeCommand 0x4009FFFF = .ok (.readReg 0x09) := by decide
theorem test_decode_write_reg : decodeCommand 0x5012AB34 = .ok (.writeReg 0x12 0x34) := by decide
theorem test_decode_busy_test : decodeCommand 0x60280000 = .ok (.busyTest 40) := by decide
theorem test_decode_sweep : decodeCommand 0x70643200 = .ok (.sweep 100 50) := by decide
theorem test_decode_clear_table : decodeCommand 0x80000000 = .ok .clearTable := by decide
theorem test_decode_cycle : decodeCommand 0x90000000 = .ok .cycle := by decide
theorem test_decode_read_hit : decodeCommand 0xA0070000 = .ok (.readHit 7) := by decide
theorem test_decode_read_status : decodeCommand 0xB0123456 = .ok .readStatus := by decide
/-- `[0x09, 0xFF]` and `[0x3F, 0xAB]`, 95 §2.2 and §1.2. -/
theorem test_decode_frames : decodeFrame 0b00001001 0xFF = .ok (.rFrame 9) ∧
    decodeFrame 0b00111111 0xAB = .ok (.wFrame 31 0xAB) := by decide
theorem test_decode_illegal :
    decodeCommand 0xC0000000 = .error .reservedOp ∧
    decodeCommand 0xF0000000 = .error .reservedOp ∧
    decodeCommand 0x01000000 = .error .reservedBits ∧
    decodeCommand 0x4F090000 = .error .reservedBits ∧
    decodeCommand 0x8FFFFFFF = .error .reservedBits := by decide
/-- Command bits 010 are no frame (R113). -/
theorem test_decode_no_frame : decodeFrame 0x40 0 = .error .notAFrame := by decide
theorem test_encode_words : encode 0 (.sweep 100 50) = .command 0x70643200 ∧
    encode 0xFF (.rFrame 9) = .frame 0x09 0xFF := by decide
/-- The opcode table's numbering: a command is 32 bits, a frame's row 8 bits of its first byte. -/
theorem test_decode_table_word : decodeTableWord 32 0x70643200 = some (.sweep 100 50) ∧
    decodeTableWord 8 0x3F = some (.wFrame 31 0) ∧ decodeTableWord 8 0x09 = some (.rFrame 9) ∧
    decodeTableWord 32 0xFFFFFFFF = none := by decide

/-! ### The checks: an ill-formed term for each (10_state.md R41, 30_encoding.md R114) -/

theorem test_default_well_formed : Cfg.default.wellFormed = true := by decide
theorem test_clock_zero : { Cfg.default with spiClkHz := 0 }.wellFormed = false := by decide
theorem test_clock_above_maximum :
    { Cfg.default with maxClkHz := 9999999 }.wellFormed = false := by decide
theorem test_window_start : { Cfg.default with winStart := 256 }.wellFormed = false := by decide
theorem test_window_count : { Cfg.default with winCount := 256 }.wellFormed = false := by decide
theorem test_sweeps : { Cfg.default with sweepsPerCycle := 65536 }.wellFormed = false := by decide
theorem test_lines_equal : { Cfg.default with enLine := 0 }.wellFormed = false := by decide
/-- The window itself is never refused (R41, R195). -/
theorem test_window_outside_well_formed :
    { Cfg.default with winStart := 255, winCount := 255 }.wellFormed = true := by decide
theorem test_lines_shared : linesDistinct [Cfg.default, Cfg.default] = false ∧
    linesDistinct [Cfg.default, { Cfg.default with csLine := 2, enLine := 3 }] = true := by decide
theorem test_line_operand_too_large : AsmLine.wellFormed ⟨.readHit, [256]⟩ = false := by decide
theorem test_line_too_few_operands : AsmLine.wellFormed ⟨.sweep, [5]⟩ = false := by decide
theorem test_assemble : assemble ⟨.sweep, [100, 50]⟩ = some 0x70643200 ∧
    assemble ⟨.writeReg, [0xE5, 0x28]⟩ = some 0x50E50028 ∧
    assemble ⟨.busyTest, [256]⟩ = none ∧ assemble ⟨.rawWord, [0xC0000000]⟩ = some 0xC0000000 := by
  decide
/-- R115: the window (63, 3) reads channels 63, 64, 65; a window from 126 on reads none. -/
theorem test_report : Pseudo.expand { Cfg.default with winStart := 63, winCount := 3 } .report =
      [.cycle, .readHit 63, .readHit 64, .readHit 65] ∧
    Pseudo.expand { Cfg.default with winStart := 126, winCount := 5 } .report = [.cycle] := by
  decide +kernel

/-! ### NOP, ATTACH, CONFIGURE, POWER_UP, READ_STATUS (95 §2.3) -/

theorem test_nop : see reply .nop (listening []) = some (0x00000000, 0x0043) := by decide
theorem test_attach_ok : see shown .attach (fresh (.ok ⟨1⟩)) = some (0x00000000, 0x0021,
    [.gpioMode 1 .output, .gpioLevel 1 .low,
      .attachReq ⟨0⟩ 0 10000000 .idleLowLeadingEdge]) := by decide
theorem test_attach_err : see shown .attach (fresh .err) = some (0x04000000, 0x0024,
    [.gpioMode 1 .output, .gpioLevel 1 .low,
      .attachReq ⟨0⟩ 0 10000000 .idleLowLeadingEdge]) := by decide
/-- The first write fails, the second does not. -/
theorem test_configure : see shown .configure (attached [.err, got 0]) = some (0x00000000, 0x0032,
    [.xfer ⟨1⟩ 0x21 0x00, .xfer ⟨1⟩ 0x26 0x06]) := by decide
theorem test_configure_never_lowers :
    see reply .configure (listening [got 0, got 0]) = some (0x00000000, 0x0043) := by decide
theorem test_power_up : see shown .powerUp (configured [.err]) = some (0x00000000, 0x0053,
    [.xfer ⟨1⟩ 0x20 0x0B, .delay 2000, .gpioLevel 1 .high]) := by decide
theorem test_power_up_attached :
    see shown .powerUp (attached []) = some (0x02000000, 0x0021, []) := by decide
theorem test_read_status :
    see reply .readStatus { listening [] with rdFail := true } = some (0x0000004B, 0x004B) := by
  decide
theorem test_read_status_reset : see reply .readStatus State.reset = some (0, 0) := by decide

/-! ### READ_REG, WRITE_REG, R_FRAME, W_FRAME (95 §1.2, §2.2) -/

theorem test_read_reg : see shown (.readReg 0x20) (listening [got 0x0B]) =
    some (0x0000000B, 0x0043, [.xfer ⟨1⟩ 0x00 0xFF]) := by decide
theorem test_read_reg_err : see shown (.readReg 0x09) (listening [.err]) =
    some (0x05000000, 0x004B, [.xfer ⟨1⟩ 0x09 0xFF]) := by decide
theorem test_write_reg : see shown (.writeReg 0xE0 0x00) (listening [got 0]) =
    some (0x00000000, 0x0043, [.xfer ⟨1⟩ 0x20 0x00]) := by decide
theorem test_write_reg_err : see shown (.writeReg 0x05 0x28) (listening [.err]) =
    some (0x00000000, 0x0053, [.xfer ⟨1⟩ 0x25 0x28]) := by decide
/-- The frame `[0x1F, 0xFF] -> Ok(_, 0x7E)` of 95 §3 P3. -/
theorem test_r_frame : see (fun s => (s.frameOut, s.events)) (.rFrame 31) (attached [got 0x7E]) =
    some (.value 0x7E, [.xfer ⟨1⟩ 0x1F 0xFF]) := by decide
theorem test_w_frame : see (fun s => (s.wrFail, s.events)) (.wFrame 31 0x7E) (attached [.err]) =
    some (true, [.xfer ⟨1⟩ 0x3F 0x7E]) := by decide

/-! ### BUSY_TEST, SWEEP, CLEAR_TABLE, CYCLE, READ_HIT (95 §1.4, §1.5, §2.4) -/

theorem test_busy_test : see shown (.busyTest 125) (listening (test1 0x01)) = some
    (0x00000001, 0x0043, [.xfer ⟨1⟩ 0x25 0x7D, .delay 150, .xfer ⟨1⟩ 0x09 0xFF]) := by decide
theorem test_busy_test_both_fail :
    see reply (.busyTest 40) (listening [.err, .err]) = some (0x05000000, 0x005B) := by decide
/-- Hit attribution, 95 §1.4: channel 7 is busy, and counter 7 goes up, not counter 5. -/
theorem test_sweep : see (fun s => (s.resp, s.readHit 7, s.readHit 5)) (.sweep 5 5)
    (listening (test1 0 ++ test1 0 ++ test1 1 ++ test1 0 ++ test1 0)) =
      some (0x00000005, 1, 0) := by decide +kernel
theorem test_sweep_saturates : see (fun s => (s.resp, s.readHit 7)) (.sweep 7 1)
    ((listening (test1 1)).writeHit 7 0xFFFF) = some (0x00000001, 0xFFFF) := by decide +kernel
theorem test_clear_table : see (fun s => (s.resp, s.readHit 7)) .clearTable
    (State.reset.writeHit 7 3) = some (0x00000000, 0) := by decide +kernel
/-- K = 2, window (10, 3), channel 11 busy in both sweeps; the hit left before is cleared (P2). -/
theorem test_cycle : see (fun s => (s.resp, s.readHit 10, s.readHit 11, s.readHit 12)) .cycle
    ((withWindow 10 3 2 (listening
      (test1 0 ++ test1 1 ++ test1 0 ++ test1 0 ++ test1 1 ++ test1 0))).writeHit 11 1) =
      some (0x00000003, 0, 2, 0) := by decide +kernel
theorem test_cycle_configured : see (fun s => (s.resp, s.readHit 7)) .cycle
    ((configured []).writeHit 7 3) = some (0x02000000, 3) := by decide +kernel
theorem test_read_hit : see reply (.readHit 7) (State.reset.writeHit 7 0xFFFF) =
    some (0x0000FFFF, 0) := by decide +kernel
theorem test_read_hit_range : see reply (.readHit 126) State.reset = some (0x03000000, 0) := by
  decide
/-- 95 §2.4: the windows that select nothing, and the clipped sizes. -/
theorem test_windows : windowSize 126 10 = 0 ∧ windowSize 5 0 = 0 ∧ windowSize 255 255 = 0 ∧
    windowSize 0 255 = 126 ∧ windowSize 120 7 = 6 ∧ windowSize 100 50 = 26 := by decide

/-- A sweep of channels 5 to 9 whose fifth call is never answered stands in channel 6's delay: channel
5 is counted, and there is no response (70_reset_and_hazards.md R253). -/
theorem test_sweep_unanswered : see (fun s => (s.busy, s.responses, s.readHit 5, s.readHit 6,
      s.events.getLast?)) (.sweep 5 5) ((listening (test1 1 ++ test1 1)).hangingAfter 4) =
    some (true, [], 1, 0, some (.delay 150)) := by decide +kernel

/-! ### The step (95 §2.1, §2.5; 60_exceptions.md R227) -/

theorem test_step_illegal : (next? (step (presented 0x8FFFFFFF (listening [])))).map reply =
    some (0x01000000, 0x0043) := by decide
/-- A reset in the middle of a command: no response, no event, STATUS 0. -/
theorem test_step_reset : (next? (step { listening [] with busy := true, hostIn := [.reset] })).map
    (fun s => (statusWord s, s.responses, s.events, s.busy)) = some (0, [], [], false) := by decide
/-- A word stored where the step takes it from is the first instruction after reset. -/
theorem test_fetch_command : (next? (step (State.reset.withFetchWord 32 0x70000A00))).map reply =
    some (0x02000000, 0) := by decide
theorem test_fetch_frame : (next? (step (State.reset.withFetchWord 8 0x09))).map (·.frameOut) =
    some .noDevice := by decide

/-! ### Witnesses: the hypotheses of each statement are met -/

/-- An instance that stands in a call that is never answered. -/
def stuckState : State := { listening [] with busy := true }

/-- A response not yet taken, and a command behind it. -/
def waiting : State := { presented 0x00000000 (listening []) with respWaiting := true }

/-- Two instances on one bus, with four lines (95 §3 P4), and the first one's turn. -/
def twoRadios : System where
  instances := [State.init { Cfg.default with winStart := 0, winCount := 63 },
    State.init { Cfg.default with csLine := 2, enLine := 3, winStart := 63, winCount := 63 }]
  turns := [0]

/-- The bring-up invariants of a state given by its fields. -/
theorem bringupInv_of {s : State} (h1 : (s.devref = none ↔ s.fsm = .unattached))
    (h2 : (s.ce = .high ↔ s.fsm = .listening)) (h3 : s.ce ≠ .undriven) : BringupInv s :=
  ⟨h1, h2, fun h => absurd h h3⟩

theorem witness_ResetLeavesTheStatedValues :
    (State.reset = State.reset ∨ ∃ cfg, State.reset = State.init cfg) ∧
    ∃ (s : State) (cfg : Cfg), cfg ≠ Cfg.default ∧ s = State.init cfg :=
  ⟨.inl rfl, _, { Cfg.default with winStart := 7 }, by decide, rfl⟩

theorem witness_ResetSetsEveryFieldAndIssuesNothing :
    ({ stuckState with hostIn := [.reset] } : State).cfg.wellFormed = true ∧
    ({ stuckState with hostIn := [.reset] } : State).hostIn.head? = some .reset ∧
    stuckState.fsm ≠ .unattached := by decide

/-- A command whose predecessor's response is taken, and one whose response is taken in this step; an
ILLEGAL word. -/
theorem witness_StepRunsTheDecodedCommand :
    (∃ (s : State) (w : Word) (ws : List Word) (i : Instr), s.cfg.wellFormed = true ∧ s.hostIn.head? ≠ some .reset ∧ s.busy = false ∧
      s.frameIn = none ∧ s.respWaiting = false ∧ s.cmdIn = w :: ws ∧ decodeCommand w = .ok i) ∧
    (∃ (s : State) (w : Word) (ws : List Word) (i : Instr), s.cfg.wellFormed = true ∧ s.hostIn.head? ≠ some .reset ∧ s.busy = false ∧
      s.frameIn = none ∧ s.hostIn.head? = some .takeResponse ∧ s.respWaiting = true ∧
      s.cmdIn = w :: ws ∧ decodeCommand w = .ok i) ∧
    (∃ (s : State) (w : Word) (ws : List Word) (e : DecodeError), s.cfg.wellFormed = true ∧ s.hostIn.head? ≠ some .reset ∧ s.busy = false ∧
      s.frameIn = none ∧ s.respWaiting = false ∧ s.cmdIn = w :: ws ∧ decodeCommand w = .error e) :=
  ⟨⟨presented 0xB0000000 (listening []), 0xB0000000, [], .readStatus, by decide⟩,
    ⟨{ waiting with hostIn := [.takeResponse] }, 0x00000000, [], .nop, by decide⟩,
    ⟨presented 0xC0000000 (listening []), 0xC0000000, [], .reservedOp, by decide⟩⟩

/-- A frame, and a pair of bytes that is none. -/
theorem witness_StepRunsTheDecodedFrame :
    (∃ (s : State) (tx0 tx1 : Byte) (i : Instr), s.cfg.wellFormed = true ∧
      s.hostIn.head? ≠ some .reset ∧ s.busy = false ∧ s.frameIn = some (tx0, tx1) ∧
      decodeFrame tx0 tx1 = .ok i) ∧
    (∃ (s : State) (tx0 tx1 : Byte) (e : DecodeError), s.cfg.wellFormed = true ∧
      s.hostIn.head? ≠ some .reset ∧ s.busy = false ∧ s.frameIn = some (tx0, tx1) ∧
      decodeFrame tx0 tx1 = .error e) :=
  ⟨⟨{ listening [] with frameIn := some (0x3F, 0xAB) }, 0x3F, 0xAB, .wFrame 31 0xAB, by decide⟩,
    ⟨{ listening [] with frameIn := some (0x40, 0xAB) }, 0x40, 0xAB, .notAFrame, by decide⟩⟩

/-- OP 0xC, the first reserved one; RSV 1 under a valid OP. 0xB0FFFFFF has neither. -/
theorem witness_IllegalWordOnlyAnswersErrIllegal :
    0xC ≤ ((0xC0000000 : Word).extractLsb' 28 4).toNat ∧
    (0x01000000 : Word).extractLsb' 24 4 ≠ 0#4 ∧
    ¬ 0xC ≤ ((0xB0FFFFFF : Word).extractLsb' 28 4).toNat ∧
    (0xB0FFFFFF : Word).extractLsb' 24 4 = 0#4 := by decide

theorem witness_PresentedCommandWaitsForTheResponse :
    waiting.cfg.wellFormed = true ∧ waiting.frameIn = none ∧ waiting.respWaiting = true ∧
    waiting.hostIn.head? ≠ some .reset ∧ waiting.hostIn.head? ≠ some .takeResponse := by decide

theorem witness_BlockNeverStopsByItself : stuckState.cfg.wellFormed = true := by decide

/-- An instance with these lines. -/
def onLines (cs en : Line) : State := State.init { Cfg.default with csLine := cs, enLine := en }

/-- Two instances that share a line, in each of the three ways. -/
theorem witness_IllFormedConfigurationHasNoStep :
    (0 ≠ 1 ∧ (System.mk [onLines 0 1, onLines 0 2] [0]).instances[0]? = some (onLines 0 1) ∧
      (System.mk [onLines 0 1, onLines 0 2] [0]).instances[1]? = some (onLines 0 2) ∧
      (onLines 0 1).cfg.csLine = (onLines 0 2).cfg.csLine) ∧
    (onLines 0 1).cfg.csLine = (onLines 2 0).cfg.enLine ∧
    (onLines 0 1).cfg.enLine = (onLines 2 1).cfg.enLine :=
  ⟨⟨by decide, rfl, rfl, rfl⟩, rfl, rfl⟩

theorem witness_InstancesDoNotInteract : ∃ z, twoRadios.step = .next z := ⟨_, rfl⟩

/-- The last valid OP and the first reserved one; RSV 0 and RSV 1. -/
theorem witness_EveryWordIsOneCommandOrIllegal :
    ((0xBFFFFFFF : Word).extractLsb' 24 4 ≠ 0#4) ∧
    (((0xB0FFFFFF : Word).extractLsb' 28 4).toNat < 0xC ∧
      (0xB0FFFFFF : Word).extractLsb' 24 4 = 0#4) ∧
    0xC ≤ ((0xC0FFFFFF : Word).extractLsb' 28 4).toNat := by decide

/-- Two words for each kind of command that differ in an unused field only. -/
theorem witness_UnusedFieldsDoNotMatter :
    ((0x00000000 : Word).extractLsb' 24 8 = (0x00FFFFFF : Word).extractLsb' 24 8 ∧
      ((0x00000000 : Word).extractLsb' 28 4).toNat ∈ [0x0, 0x1, 0x2, 0x3, 0x8, 0x9, 0xB]) ∧
    ((0x40090000 : Word).extractLsb' 24 8 = (0x4009FFFF : Word).extractLsb' 24 8 ∧
      ((0x40090000 : Word).extractLsb' 28 4).toNat ∈ [0x4, 0x6, 0xA] ∧
      (0x40090000 : Word).extractLsb' 16 8 = (0x4009FFFF : Word).extractLsb' 16 8) ∧
    ((0x50120034 : Word).extractLsb' 24 8 = (0x5012AB34 : Word).extractLsb' 24 8 ∧
      ((0x50120034 : Word).extractLsb' 28 4).toNat = 0x5 ∧
      (0x50120034 : Word).extractLsb' 16 8 = (0x5012AB34 : Word).extractLsb' 16 8 ∧
      (0x50120034 : Word).extractLsb' 0 8 = (0x5012AB34 : Word).extractLsb' 0 8) ∧
    ((0x70643200 : Word).extractLsb' 24 8 = (0x706432FF : Word).extractLsb' 24 8 ∧
      ((0x70643200 : Word).extractLsb' 28 4).toNat = 0x7 ∧
      (0x70643200 : Word).extractLsb' 16 8 = (0x706432FF : Word).extractLsb' 16 8 ∧
      (0x70643200 : Word).extractLsb' 8 8 = (0x706432FF : Word).extractLsb' 8 8) := by decide

/-- Operands 255 and 256. -/
theorem witness_AssembledLinesDecodeToTheirCommands : (0 ≤ 255 ∧ 255 ≤ 255) ∧
    (Mnemonic.sweep ≠ .rawWord ∧ AsmLine.wellFormed ⟨.sweep, [255, 255]⟩ = true) ∧
    (Mnemonic.readHit ≠ .rawWord ∧ ∃ n ∈ (AsmLine.mk .readHit [256]).operands, 255 < n) := by
  decide

/-- A word with the bits [31:24] each command's encoding clause asks for, its other bits not 0. -/
theorem witness_WordsDecodeTo :
    (0x00FFFFFF : Word).extractLsb' 24 8 = 0x00#8 ∧ (0x10FFFFFF : Word).extractLsb' 24 8 = 0x10#8 ∧
    (0x20FFFFFF : Word).extractLsb' 24 8 = 0x20#8 ∧ (0x30FFFFFF : Word).extractLsb' 24 8 = 0x30#8 ∧
    (0x4009FFFF : Word).extractLsb' 24 8 = 0x40#8 ∧ (0x5012AB34 : Word).extractLsb' 24 8 = 0x50#8 ∧
    (0x60280000 : Word).extractLsb' 24 8 = 0x60#8 ∧ (0x70643200 : Word).extractLsb' 24 8 = 0x70#8 ∧
    (0x80FFFFFF : Word).extractLsb' 24 8 = 0x80#8 ∧ (0x90FFFFFF : Word).extractLsb' 24 8 = 0x90#8 ∧
    (0xA0070000 : Word).extractLsb' 24 8 = 0xA0#8 ∧ (0xB0123456 : Word).extractLsb' 24 8 = 0xB0#8 := by
  decide

theorem witness_AttachBindsTheDeviceOrReportsTheFailure :
    (attached []).fsm ≠ .unattached ∧
    ((fresh (.ok ⟨1⟩)).fsm = .unattached ∧ (fresh (.ok ⟨1⟩)).Fair ∧
      (fresh (.ok ⟨1⟩)).attachAnswer = .ok ⟨1⟩) ∧
    ((fresh .err).fsm = .unattached ∧ (fresh .err).Fair ∧ (fresh .err).attachAnswer = .err) := by
  decide

theorem witness_ConfigureWritesTwoRegistersAndNeverLowers :
    State.reset.fsm = .unattached ∧
    ((attached []).fsm ≠ .unattached ∧ (attached []).devref = some ⟨1⟩ ∧ (attached []).Fair) := by
  decide

theorem witness_PowerUpWaitsThenDrivesTheEnableLineHigh :
    State.reset.fsm = .unattached ∧ (attached []).fsm = .attached ∧
    ((configured []).fsm = .configured ∧ (configured []).devref = some ⟨1⟩ ∧
      (configured []).Fair) ∧
    ((listening []).fsm = .listening ∧ (listening []).devref = some ⟨1⟩ ∧ (listening []).Fair) := by
  decide

/-- A refused and an allowed command; the allowed one's other hypotheses. -/
theorem witness_PreconditionTableHolds :
    (isCommand .powerUp = true ∧ allowedIn .powerUp (attached []).fsm = false) ∧
    (isCommand .powerUp = true ∧ allowedIn .powerUp (configured []).fsm = true ∧
      BringupInv (configured []) ∧ (configured []).Fair) :=
  ⟨by decide, by decide, by decide, bringupInv_of (by decide) (by decide) (by decide), rfl⟩

theorem witness_BringupReachesListeningOrStopsAtAttach :
    ((fresh (.ok ⟨1⟩)).fsm = .unattached ∧ (fresh (.ok ⟨1⟩)).Fair ∧
      (fresh (.ok ⟨1⟩)).attachAnswer = .ok ⟨1⟩) ∧
    ((fresh .err).fsm = .unattached ∧ (fresh .err).Fair ∧ (fresh .err).attachAnswer = .err) := by
  decide

theorem witness_ConfiguringTwiceIsConfiguringOnce :
    (attached (List.replicate 6 (got 0))).fsm = .attached ∧
    (attached (List.replicate 6 (got 0))).devref = some ⟨1⟩ ∧
    (attached (List.replicate 6 (got 0))).Fair ∧
    ∀ n, n < 6 → ((attached (List.replicate 6 (got 0))).nthXfer n).isErr = false := by decide

theorem witness_ReadRegAnswersTheValueOrXferFail :
    State.reset.fsm = .unattached ∧
    ((attached [got 5]).fsm ≠ .unattached ∧ (attached [got 5]).devref = some ⟨1⟩ ∧
      (attached [got 5]).Fair ∧ (attached [got 5]).xferAnswer = .ok 0x0E 5) ∧
    ((attached [.err]).fsm ≠ .unattached ∧ (attached [.err]).devref = some ⟨1⟩ ∧
      (attached [.err]).Fair ∧ (attached [.err]).xferAnswer = .err) := by decide

theorem witness_WriteRegAnswersOkWhateverTheFrameMeets :
    State.reset.fsm = .unattached ∧ (listening []).fsm ≠ .unattached ∧
    (listening []).devref = some ⟨1⟩ ∧ (listening []).Fair := by decide

theorem witness_AddressOperandsAreMasked : (listening []).fsm ≠ .unattached ∧
    (listening []).devref = some ⟨1⟩ ∧ (listening []).Fair := by decide

/-- The write answered Ok and the read answered with the value the file then holds (95 §1.1). -/
theorem witness_WriteThenReadGivesTheValueBack :
    (listening [got 0, got 0x77]).fsm ≠ .unattached ∧
    (listening [got 0, got 0x77]).devref = some ⟨1⟩ ∧ (listening [got 0, got 0x77]).Fair ∧
    (listening [got 0, got 0x77]).nthXfer 0 = .ok 0x0E 0 ∧
    (listening [got 0, got 0x77]).nthXfer 1 = .ok 0x0E
      ((RegFile.replay (Vector.replicate 32 0) [.xfer ⟨1⟩ 0x33 0x77]).value 0x13) := by
  decide +kernel

theorem witness_ReadFrameIsOneTransfer : State.reset.devref = none ∧
    ((attached [got 5]).devref = some ⟨1⟩ ∧ (attached [got 5]).Fair ∧
      (attached [got 5]).xferAnswer = .ok 0x0E 5) ∧
    ((attached [.err]).devref = some ⟨1⟩ ∧ (attached [.err]).Fair ∧
      (attached [.err]).xferAnswer = .err) := by decide

theorem witness_WriteFrameIsOneTransfer : State.reset.devref = none ∧
    (attached []).devref = some ⟨1⟩ ∧ (attached []).Fair := by decide

/-- Channels 125 and 126. -/
theorem witness_BusyTestTestsOneChannel : (configured []).fsm ≠ .listening ∧
    ((listening []).fsm = .listening ∧ (listening []).devref = some ⟨1⟩ ∧ (listening []).Fair) ∧
    126 ≤ (126 : Byte).toNat ∧ (125 : Byte).toNat ≤ 125 := by decide

/-- The two ends of the operands' range. -/
theorem witness_WindowSelectsItsChannelsInOrder : (0 ≤ 255 ∧ 255 ≤ 255) ∧
    (windowChannels 255 255).length = 0 ∧ (windowChannels 125 255).length = 1 := by decide +kernel

theorem witness_SweepCountsBusyChannelsOnce : (configured []).fsm ≠ .listening ∧
    (listening []).fsm = .listening ∧ (listening []).devref = some ⟨1⟩ ∧ (listening []).Fair := by
  decide

theorem witness_SweepOf100And50TouchesChannels100To125 : (listening []).fsm = .listening ∧
    (listening []).devref = some ⟨1⟩ ∧ (listening []).Fair := by decide

theorem witness_CycleCountsTheSweepsThatFoundEachChannelBusy : (configured []).fsm ≠ .listening ∧
    ((listening []).fsm = .listening ∧ (listening []).devref = some ⟨1⟩ ∧ (listening []).Fair ∧
      (listening []).cfg.wellFormed = true) := by decide

/-- Channels 125 and 126. -/
theorem witness_ReadHitAnswersTheCounter :
    (125 : Byte).toNat < 126 ∧ 126 ≤ (126 : Byte).toNat := by decide

/-- One instruction of each kind the statement tells apart, which goes on. -/
theorem witness_OnlyScansAndClearsWriteTheTable :
    (∃ t, exec (.readHit 7) State.reset = .next t) ∧
    (∃ t, exec (.sweep 7 1) (listening (test1 1)) = .next t) ∧
    (∃ t, exec .clearTable (listening []) = .next t) := ⟨⟨_, rfl⟩, ⟨_, rfl⟩, ⟨_, rfl⟩⟩

theorem witness_CountersGrowOnlyWhereTheirChannelWasTested :
    ∃ t, step (presented 0x70070100 (listening (test1 1))) = .next t := ⟨_, rfl⟩

theorem witness_CommandsWaitAtLeastTheirBounds :
    ((configured []).devref = some ⟨1⟩ ∧ (configured []).Fair ∧ (configured []).fsm = .configured) ∧
    ((listening []).devref = some ⟨1⟩ ∧ (listening []).Fair ∧ (listening []).fsm = .listening ∧
      (125 : Byte).toNat ≤ 125) := by decide

theorem witness_EveryStepIssuesBoundedlyManyEvents :
    ∃ t, step (presented 0x30000000 (configured [got 0])) = .next t := ⟨_, rfl⟩

/-- A state that is not the reset state, and a step of it that moves the bring-up state. -/
theorem witness_EveryStepKeepsTheBringupInvariant :
    BringupInv (presented 0x30000000 (configured [got 0])) ∧
    ∃ t, step (presented 0x30000000 (configured [got 0])) = .next t ∧ t.fsm = .listening :=
  ⟨bringupInv_of (by decide) (by decide) (by decide), _, rfl, by decide⟩

theorem witness_EveryStepIssuesOnlyPermittedEvents :
    EventsPermitted (presented 0x30000000 (configured [got 0])) ∧
    ∃ t, step (presented 0x30000000 (configured [got 0])) = .next t ∧ t.events ≠ [] :=
  ⟨fun _ h => (List.not_mem_nil h).elim, _, rfl, by decide⟩

theorem witness_EveryStepKeepsTheResponseShape :
    ResponseShape (presented 0xC0000000 (listening [])) ∧
    ∃ t, step (presented 0xC0000000 (listening [])) = .next t ∧ t.resp ≠ 0 :=
  ⟨⟨by decide, by decide⟩, _, rfl, by decide⟩

theorem witness_BringupStateNeverDecreases :
    ∃ t, step (presented 0x30000000 (configured [got 0])) = .next t ∧
      (presented 0x30000000 (configured [got 0])).hostIn.head? ≠ some .reset ∧
      exec .powerUp (configured [got 0]) ≠ .next (configured [got 0]) := by
  refine ⟨_, rfl, by decide, fun h => ?_⟩
  have := congrArg (fun o => (next? o).map (·.fsm)) h
  revert this
  decide

/-- ATTACH answered Ok; a state that meets the invariant; a reset. -/
theorem witness_DeviceReferenceIsWrittenOnlyByAttach :
    (∃ t, exec .attach (fresh (.ok ⟨1⟩)) = .next t) ∧ BringupInv (fresh (.ok ⟨1⟩)) ∧
    (∃ t, step { listening [] with hostIn := [.reset] } = .next t) :=
  ⟨⟨_, rfl⟩, ⟨by decide, by decide, by decide⟩, _, rfl⟩

theorem witness_FailureFlagsStaySetUntilReset :
    ∃ s t : State, step s = .next t ∧ s.hostIn.head? ≠ some .reset ∧ s.attachFail = true ∧
      s.rdFail = true ∧ s.wrFail = true :=
  ⟨{ presented 0xB0000000 (listening []) with attachFail := true, rdFail := true, wrFail := true },
    _, rfl, by decide⟩

theorem witness_ConfigurationIsNeverWritten :
    ∃ t, step { stuckState with hostIn := [.reset] } = .next t := ⟨_, rfl⟩

/-- A call that is answered, and one that is not. -/
theorem witness_EveryCommandAnswersOnceOrStaysBusy :
    (isCommand .attach = true ∧ (fresh .err).Fair) ∧
    ¬ ({ fresh .err with hangAfter := some 0 } : State).Fair := by decide

theorem witness_UnansweredCallLeavesTheCommandInProgress :
    ∃ (i : Instr) (s : State), alwaysCalls i = true ∧ allowedIn i s.fsm = true ∧ BringupInv s ∧
      s.hangAfter = some 0 :=
  ⟨.busyTest 125, { listening [] with hangAfter := some 0 }, by decide, by decide,
    bringupInv_of (by decide) (by decide) (by decide), rfl⟩

theorem witness_BusyInstanceStaysBusy : stuckState.cfg.wellFormed = true ∧
    stuckState.busy = true ∧ stuckState.hostIn.head? ≠ some .reset := by decide

/-- The last byte of each pattern and the first of the next. -/
theorem witness_EveryPairOfBytesIsOneFrameOrNone :
    (0x1F : Byte).extractLsb' 5 3 = 0b000#3 ∧ (0x20 : Byte).extractLsb' 5 3 = 0b001#3 ∧
    (0x3F : Byte).extractLsb' 5 3 = 0b001#3 ∧ (0x40 : Byte).extractLsb' 5 3 ≠ 0b000#3 ∧
    (0x40 : Byte).extractLsb' 5 3 ≠ 0b001#3 := by decide

/-- POWER_UP makes two blocking calls: with one more answered it stands in its delay, with two it
ends. -/
theorem witness_UnansweredCallStopsTheInstructionThere :
    ∃ u, exec .powerUp (configured [got 0]).fairly = .next u ∧
      u.events = (configured [got 0]).events ++
        [.xfer ⟨1⟩ 0x20 0x0B, .delay 2000, .gpioLevel 1 .high] ∧
      1 < blockingCalls [.xfer ⟨1⟩ 0x20 0x0B, .delay 2000, .gpioLevel 1 .high] ∧
      blockingCalls [.xfer ⟨1⟩ 0x20 0x0B, .delay 2000, .gpioLevel 1 .high] ≤ 2 :=
  ⟨_, rfl, by decide, by decide, by decide⟩

/-- SWEEP 5, 5 and the configured window, with 4 of their calls answered. -/
theorem witness_UnansweredCallInAScanKeepsTheCountsSoFar :
    ((listening []).hangingAfter 4).fsm = .listening ∧
    ((listening []).hangingAfter 4).devref = some ⟨1⟩ ∧
    ((listening []).hangingAfter 4).hangAfter = some 4 ∧
    4 < 3 * (min ((5 : Byte).toNat + (5 : Byte).toNat) 126 - (5 : Byte).toNat) ∧
    ((listening []).hangingAfter 4).cfg.wellFormed = true ∧
    4 < 3 * ((listening []).cfg.sweepsPerCycle *
      (min ((listening []).cfg.winStart + (listening []).cfg.winCount) 126 -
        (listening []).cfg.winStart)) := by decide

end Sys2Proof.Tests
end

/-! PROOF. 10_state.md: an ill-formed configuration has no step (R41), the device reference (R45),
and the values after reset (R57). -/

namespace Sys2Proof

/-- The conditions of 10_state.md R41 on one configuration, as numbers and lines. -/
theorem Cfg.wellFormed_iff (c : Cfg) : c.wellFormed = true ↔
    (0 < c.spiClkHz ∧ c.spiClkHz ≤ c.maxClkHz) ∧ (c.winStart ≤ 255 ∧ c.winCount ≤ 255) ∧
      c.sweepsPerCycle ≤ 65535 ∧ c.csLine ≠ c.enLine := by
  simp [Cfg.wellFormed, Cfg.clockOk, Cfg.windowOk, Cfg.sweepsOk, Cfg.linesOk, and_assoc]

/-- The ways in which a configuration breaks R41. -/
theorem Cfg.wellFormed_eq_false_iff (c : Cfg) : c.wellFormed = false ↔
    c.spiClkHz = 0 ∨ c.maxClkHz < c.spiClkHz ∨ 255 < c.winStart ∨ 255 < c.winCount ∨
      65535 < c.sweepsPerCycle ∨ c.csLine = c.enLine := by
  rw [← Bool.not_eq_true, Cfg.wellFormed_iff]
  simp only [not_and_or, not_lt, not_le, not_not, Nat.le_zero, or_assoc]

end Sys2Proof

namespace Sys2Proof.Machine

/-! ### Which steps are refused -/

/-- No instruction is refused or faults (60_exceptions.md R210). -/
theorem exec_next (i : Instr) (s : State) : ∃ t, exec i s = .next t :=
  (exec_shape i s).imp fun _ h => h.1

/-- Whatever the port holds, there is a next state (70_reset_and_hazards.md R254). -/
theorem runPort_next (s : State) : ∃ t, runPort s = .next t := by
  unfold runPort
  split
  · exact ⟨s, rfl⟩
  · split
    · unfold runFrame
      split
      · exact exec_next _ _
      · exact ⟨_, rfl⟩
    · split
      · exact ⟨s, rfl⟩
      · split
        · exact ⟨s, rfl⟩
        · unfold runCommand
          split
          · exact exec_next _ _
          · exact ⟨_, rfl⟩

theorem step_of_wellFormed {s : State} (h : s.cfg.wellFormed = true) : ∃ t, step s = .next t := by
  rw [step, if_pos h]
  split
  · exact ⟨_, rfl⟩
  · exact runPort_next s.hostMoved

theorem step_of_illFormed {s : State} (h : s.cfg.wellFormed = false) :
    step s = .refused .illFormedConfig := if_neg (by simp [h])

theorem step_refused_iff (s : State) :
    step s = .refused .illFormedConfig ↔ s.cfg.wellFormed = false := by
  refine ⟨fun h => ?_, step_of_illFormed⟩
  cases hw : s.cfg.wellFormed with
  | false => rfl
  | true =>
    obtain ⟨t, ht⟩ := step_of_wellFormed hw
    rw [h] at ht
    cases ht

theorem System.step_of_illFormed {y : System} (h : y.wellFormed = false) :
    y.step = .refused .illFormedConfig := if_neg (by simp [h])

/-- In a well-formed system two instances have no line in common (R41). -/
theorem System.lines_ne_of_wellFormed {y : System} (h : y.wellFormed = true) {j k : Nat}
    (hjk : j ≠ k) {s t : State} (hs : y.instances[j]? = some s) (ht : y.instances[k]? = some t) :
    s.cfg.csLine ≠ t.cfg.csLine ∧ s.cfg.csLine ≠ t.cfg.enLine ∧ s.cfg.enLine ≠ t.cfg.enLine := by
  obtain ⟨_, hlines⟩ := Bool.and_eq_true_iff.1 h
  exact linesDistinct_ne hlines hjk (c := s.cfg) (d := t.cfg) (by simp [hs]) (by simp [ht])

/-- Settles O8: a step is refused by its configuration's check alone, since `exec` never refuses. -/
theorem illFormedConfigurationHasNoStep : Obligations.IllFormedConfigurationHasNoStep := by
  refine ⟨fun s => s.cfg.wellFormed_eq_false_iff.symm.trans (step_refused_iff s).symm, ?_⟩
  intro y j k s t hjk hs ht hshared
  refine System.step_of_illFormed (Bool.eq_false_iff.2 fun hw => ?_)
  obtain ⟨hcc, hce, hee⟩ := System.lines_ne_of_wellFormed hw hjk hs ht
  rcases hshared with h | h | h
  exacts [hcc h, hce h, hee h]

/-! ### The device reference -/

theorem raiseToConfigured_fsm (u : State) : (raiseToConfigured u).fsm =
    if u.fsm = .attached then .configured else u.fsm := by
  unfold raiseToConfigured
  split <;> rfl

@[simp] theorem raiseToConfigured_events (u : State) :
    (raiseToConfigured u).events = u.events := by
  unfold raiseToConfigured
  split <;> rfl

/-- POWER_UP's settling is the one that issues an event (41_device_fsm.md R155). -/
theorem settle_events (i : Instr) (u : State) : (settle i u).events =
    u.events ++ if i = .powerUp then [.gpioLevel u.cfg.enLine .high] else [] := by
  cases i <;> simp [settle]

/-- What settling makes of the bring-up state (R154, R155). -/
theorem settle_fsm_cases (i : Instr) (u : State) :
    (settle i u).fsm = u.fsm ∨
    (i = .configure ∧ u.fsm = .attached ∧ (settle i u).fsm = .configured) ∨
    (i = .powerUp ∧ (settle i u).fsm = .listening) := by
  cases i with
  | configure =>
    by_cases h : u.fsm = .attached
    · exact .inr (.inl ⟨rfl, h, (raiseToConfigured_fsm u).trans (if_pos h)⟩)
    · exact .inl ((raiseToConfigured_fsm u).trans (if_neg h))
  | powerUp => exact .inr (.inr ⟨rfl, rfl⟩)
  | _ => exact .inl rfl

/-- Settling never goes back to UNATTACHED. -/
theorem settle_fsm_ne_unattached {i : Instr} {u : State} (h : u.fsm ≠ .unattached) :
    (settle i u).fsm ≠ .unattached := by
  rcases settle_fsm_cases i u with hf | ⟨_, _, hf⟩ | ⟨_, hf⟩ <;> simp [hf, h]

section
variable {i : Instr} {s t : State}

/-- Who writes the device reference (10_state.md R45): no bus call, and of the answered commands
only ATTACH. -/
theorem ExecShape.devref (h : ExecShape i s t) :
    t.devref = s.devref ∨ (i = .attach ∧ s.fsm = .unattached ∧
      ∃ ref, s.attachAnswer = .ok ref ∧ t.devref = some ref) := by
  cases h with
  | attachDone hi hf u hu ht =>
    subst hu
    obtain ⟨ref, ha, rfl⟩ | ⟨_, rfl⟩ := ht
    · exact .inr ⟨hi, hf, ref, ha, by simp⟩
    · exact .inl (by simp)
  | busHung ref hd hi ha es step => exact .inl (by simp [step.devref])
  | busDone ref hd hi hc ha u es step hes hpu hhit k d ht => exact .inl (by simp [ht, step.devref])
  | frameDone hi ref hd u es step hes hhit busy o ht => exact .inl (by simp [ht, step.devref])
  | answer hi k d ht => exact .inl (by simp [ht])
  | clear hi ht => exact .inl (by simp [ht])
  | noDevice hi hd ht => exact .inl (by simp [ht])
  | attachHung hi hf ht => exact .inl (by simp [ht])

/-- Every transfer an instruction issues goes to the device of its start (R45). -/
theorem ExecShape.xfers_to_devref (h : ExecShape i s t) :
    ∃ es, t.events = s.events ++ es ∧
      ∀ r tx0 tx1, Event.xfer r tx0 tx1 ∈ es → s.devref = some r := by
  cases h with
  | answer hi k d ht => exact ⟨[], by simp [ht], by simp⟩
  | clear hi ht => exact ⟨[], by simp [ht], by simp⟩
  | noDevice hi hd ht => exact ⟨[], by simp [ht], by simp⟩
  | attachHung hi hf ht =>
    exact ⟨_, by rw [ht, State.stuck_events, attachSent_events], by simp⟩
  | attachDone hi hf u hu ht =>
    have hu' : u.events = (attachSent s).events := by simp [hu]
    have htu : t.events = u.events := by obtain ⟨_, _, rfl⟩ | ⟨_, rfl⟩ := ht <;> simp
    exact ⟨_, by rw [htu, hu', attachSent_events], by simp⟩
  | busHung ref hd hi ha es step =>
    exact ⟨es, by simp [step.events], fun r a b he => (step.device r a b he).symm ▸ hd⟩
  | busDone ref hd hi hc ha u es step hes hpu hhit k d ht =>
    refine ⟨es ++ if i = .powerUp then [.gpioLevel u.cfg.enLine .high] else [], ?_, ?_⟩
    · simp [ht, settle_events, step.events]
    · intro r a b he
      rcases List.mem_append.1 he with he | he
      · exact (step.device r a b he).symm ▸ hd
      · split at he <;> simp at he
  | frameDone hi ref hd u es step hes hhit busy o ht =>
    exact ⟨es, by simp [ht, step.events], fun r a b he => (step.device r a b he).symm ▸ hd⟩

/-- There stays no device reference exactly when UNATTACHED (R45, R58): an instruction moves both
in ATTACH, or has a device and moves the bring-up state up only. -/
theorem ExecShape.devref_none_iff (h : ExecShape i s t)
    (hinv : s.devref = none ↔ s.fsm = .unattached) : t.devref = none ↔ t.fsm = .unattached := by
  cases h with
  | answer hi k d ht => simpa [ht] using hinv
  | clear hi ht => simpa [ht] using hinv
  | noDevice hi hd' ht => simpa [ht] using hinv
  | attachHung hi hf ht => simpa [ht] using hinv
  | attachDone hi hf u hu ht =>
    subst hu
    obtain ⟨ref, _, rfl⟩ | ⟨_, rfl⟩ := ht
    · simp
    · simpa using hinv
  | busHung ref hd hi ha es step => simpa [step.devref, step.fsm] using hinv
  | busDone ref hd hi hc ha u es step hes hpu hhit k d ht =>
    have hsf : s.fsm ≠ .unattached := fun hf => by simp [hinv.2 hf] at hd
    have huf : u.fsm ≠ .unattached := by simpa [step.fsm] using hsf
    simp [ht, step.devref, hd, settle_fsm_ne_unattached huf]
  | frameDone hi ref hd u es step hes hhit busy o ht =>
    simpa [ht, step.devref, step.fsm] using hinv

end

/-- A step that takes the reset is the reset (70_reset_and_hazards.md R240). -/
theorem step_reset {s t : State} (h : step s = .next t) (hr : s.hostIn.head? = some .reset) :
    t = s.hostMoved.applyReset := by
  cases (step_shape h).2 with
  | reset _ ht => exact ht
  | waits hn | drops hn | illegal hn | frame hn | command hn => exact absurd hr hn

/-- Settles O46, from what an instruction can have done (`exec_shape`) and what a reset leaves. -/
theorem deviceReferenceIsWrittenOnlyByAttach :
    Obligations.DeviceReferenceIsWrittenOnlyByAttach := by
  refine ⟨fun i s t h => ?_, fun s t h hr => ?_⟩
  · have hshape := exec_shape_of_next h
    exact ⟨hshape.devref, hshape.xfers_to_devref, fun hb => hshape.devref_none_iff hb.devref_none⟩
  · rw [step_reset h hr, State.applyReset_devref]

/-! ### The values after reset -/

theorem State.init_hit (cfg : Cfg) (c : Channel) : (State.init cfg).hit[c] = 0 := by
  simp [State.init]

/-- STATUS after reset (10_state.md R49, R57): every bit of it is 0, whatever the configuration. -/
theorem statusWord_init (cfg : Cfg) : statusWord (State.init cfg) = 0 := by
  simp [statusWord, State.init, EnableLevel.code, Fsm.code]

/-- Settles O1: the machine's reset state is that of one configuration. -/
theorem resetLeavesTheStatedValues : Obligations.ResetLeavesTheStatedValues := by
  intro s hs
  obtain ⟨cfg, rfl⟩ : ∃ cfg, s = State.init cfg := hs.elim (fun h => ⟨Cfg.default, h⟩) id
  exact ⟨rfl, rfl, rfl, rfl, rfl, rfl, State.init_hit cfg, rfl, rfl, statusWord_init cfg⟩

end Sys2Proof.Machine

/-! PROOF. 30_encoding.md: decoding is total (R103), the fields a command does not use are ignored
(R102), and every event of a run is one the block may issue (R113). -/

namespace Sys2Proof

/-! ### Decoding by the table of commands -/

/-- The commands in the order of their OP, with the operands each takes (30_encoding.md R104). -/
def commandTable (fa fb fc : Byte) : List Instr :=
  [.nop, .attach, .configure, .powerUp, .readReg fa, .writeReg fa fc, .busyTest fa, .sweep fa fb,
    .clearTable, .cycle, .readHit fa, .readStatus]

/-- An OP below 0xC numbers its command in the table (R103, R104). -/
theorem commandOf_of_lt {op : BitVec 4} (h : op.toNat < 0xC) (fa fb fc : Byte) :
    ∃ i, commandOf op fa fb fc = .ok i ∧ (commandTable fa fb fc)[op.toNat]? = some i := by
  unfold commandOf
  generalize op.toNat = n at h
  interval_cases n <;> exact ⟨_, rfl, rfl⟩

/-- An OP of 0xC or more is reserved (R108). -/
theorem commandOf_of_ge {op : BitVec 4} (h : 0xC ≤ op.toNat) (fa fb fc : Byte) :
    commandOf op fa fb fc = .error .reservedOp := by
  have hop : op.toNat < 16 := op.isLt
  unfold commandOf
  generalize op.toNat = n at h hop
  interval_cases n <;> rfl

/-- Settles O12: RSV not 0 is rejected before OP is looked at, and OP is an index of the table of
commands or one of the four reserved values. -/
theorem everyWordIsOneCommandOrIllegal : Obligations.EveryWordIsOneCommandOrIllegal := by
  refine fun w => ⟨fun hbad => ?_, fun hop hrsv => ?_⟩
  · by_cases hrsv : rsvField w = 0
    · have hop : 0xC ≤ (opField w).toNat := hbad.resolve_right (not_not_intro hrsv)
      exact ⟨_, (decodeCommand_of_rsv_zero hrsv).trans (commandOf_of_ge hop _ _ _)⟩
    · exact ⟨_, decodeCommand_of_rsv hrsv⟩
  · rw [decodeCommand_of_rsv_zero hrsv]
    exact commandOf_of_lt hop _ _ _

/-! ### The fields a command uses -/

/-- Bits of the bits [31:24] are bits of the word. -/
theorem extractLsb'_top (w : Word) {i n : Nat} (h : i + n ≤ 8) :
    (w.extractLsb' 24 8).extractLsb' i n = w.extractLsb' (24 + i) n := by
  refine BitVec.eq_of_getLsbD_eq fun j hj => ?_
  have hij : i + j < 8 := by omega
  simp only [BitVec.getLsbD_extractLsb', hj, hij, decide_true, Bool.true_and, Nat.add_assoc]

/-- Bits [31:24] hold OP and RSV (R100). -/
theorem opField_rsvField_of_top {v w : Word} (h : v.extractLsb' 24 8 = w.extractLsb' 24 8) :
    opField v = opField w ∧ rsvField v = rsvField w := by
  have hsub : ∀ i n, i + n ≤ 8 → v.extractLsb' (24 + i) n = w.extractLsb' (24 + i) n := by
    intro i n hin
    rw [← extractLsb'_top v hin, h, extractLsb'_top w hin]
  exact ⟨hsub 4 4 (by decide), hsub 0 4 (by decide)⟩

/-- Which fields each OP uses (R102, R104): FA with OP 4, 5, 6, 7 and 0xA, FB with OP 7, FC with
OP 5. -/
theorem commandOf_congr {op : BitVec 4} {fa fb fc fa' fb' fc' : Byte}
    (hfa : op.toNat ∈ [0x4, 0x5, 0x6, 0x7, 0xA] → fa = fa') (hfb : op.toNat = 0x7 → fb = fb')
    (hfc : op.toNat = 0x5 → fc = fc') :
    commandOf op fa fb fc = commandOf op fa' fb' fc' := by
  by_cases hop : op.toNat < 0xC
  · unfold commandOf
    generalize op.toNat = n at *
    interval_cases n <;> simp_all
  · rw [commandOf_of_ge (Nat.le_of_not_lt hop), commandOf_of_ge (Nat.le_of_not_lt hop)]

/-- Two words with one OP and one RSV that agree on the fields the OP uses decode alike (R102). -/
theorem decodeCommand_congr {v w : Word} (htop : v.extractLsb' 24 8 = w.extractLsb' 24 8)
    (hfa : (opField v).toNat ∈ [0x4, 0x5, 0x6, 0x7, 0xA] → faField v = faField w)
    (hfb : (opField v).toNat = 0x7 → fbField v = fbField w)
    (hfc : (opField v).toNat = 0x5 → fcField v = fcField w) :
    decodeCommand v = decodeCommand w := by
  obtain ⟨hop, hrsv⟩ := opField_rsvField_of_top htop
  rw [decodeCommand, decodeCommand, ← hop, ← hrsv, commandOf_congr hfa hfb hfc]

/-- Settles O13: the four kinds of command are the four ways to meet `decodeCommand_congr`, with a
field that the OP does not use excluded by the OP's number. -/
theorem unusedFieldsDoNotMatter : Obligations.UnusedFieldsDoNotMatter := by
  refine fun v w htop => ⟨fun (hop : (opField v).toNat ∈ _) => ?_,
    fun (hop : (opField v).toNat ∈ _) hfa => ?_, fun (hop : (opField v).toNat = _) hfa hfc => ?_,
    fun (hop : (opField v).toNat = _) hfa hfb => ?_⟩
  · exact decodeCommand_congr htop (fun h => by simp at h hop; omega)
      (fun h => by simp [h] at hop) (fun h => by simp [h] at hop)
  · exact decodeCommand_congr htop (fun _ => hfa) (fun h => by simp [h] at hop)
      (fun h => by simp [h] at hop)
  · exact decodeCommand_congr htop (fun _ => hfa) (fun h => by simp [h] at hop) (fun _ => hfc)
  · exact decodeCommand_congr htop (fun _ => hfa) (fun _ => hfb) (fun h => by simp [h] at hop)

end Sys2Proof

namespace Sys2Proof.Machine

/-! ### The events a step may issue -/

section
variable {s t : State}

/-- Adding permitted events, under the configuration they are permitted by, keeps the trace
permitted. -/
theorem EventsPermitted.append (h : EventsPermitted s) {es : List Event} (hcfg : t.cfg = s.cfg)
    (hev : t.events = s.events ++ es) (hes : ∀ e ∈ es, e.permitted s.cfg) : EventsPermitted t := by
  intro e he
  rw [hcfg]
  rw [hev] at he
  exact (List.mem_append.1 he).elim (h e) (hes e)

theorem EventsPermitted.of_eq (h : EventsPermitted s) (hcfg : t.cfg = s.cfg)
    (hev : t.events = s.events) : EventsPermitted t :=
  h.append (es := []) hcfg (by simpa using hev) (by simp)

/-- ATTACH's three events are on the own lines and carry the own configuration (41_device_fsm.md
R152). -/
theorem EventsPermitted.attachSent (h : EventsPermitted s) : EventsPermitted (attachSent s) :=
  h.append (attachSent_cfg s) (attachSent_events s) (by simp [Event.permitted])

theorem EventsPermitted.settle (h : EventsPermitted s) (i : Instr) :
    EventsPermitted (settle i s) := by
  refine h.append (settle_cfg i s) (settle_events i s) fun e he => ?_
  split at he <;> simp_all [Event.permitted]

/-- Calls to a device issue frames and waits of the permitted form only (30_encoding.md R113). -/
theorem BusStep.eventsPermitted {ref : DevRef} {es : List Event} (step : BusStep ref es s t)
    (h : EventsPermitted s) : EventsPermitted t :=
  h.append step.cfg step.events step.permitted

/-- Every instruction, answered or left unanswered, keeps the trace permitted. -/
theorem ExecShape.eventsPermitted {i : Instr} (hx : ExecShape i s t) (h : EventsPermitted s) :
    EventsPermitted t := by
  have hscan : EventsPermitted (scanStart i s) := h.of_eq (by simp) (by simp)
  cases hx with
  | answer hi k d ht => exact h.of_eq (by simp [ht]) (by simp [ht])
  | clear hi ht => exact h.of_eq (by simp [ht]) (by simp [ht])
  | noDevice hi hd ht => exact h.of_eq (by simp [ht]) (by simp [ht])
  | attachHung hi hf ht => exact h.attachSent.of_eq (by simp [ht]) (by simp [ht])
  | attachDone hi hf u hu ht =>
    subst hu
    obtain ⟨ref, _, rfl⟩ | ⟨_, rfl⟩ := ht <;> exact h.attachSent.of_eq (by simp) (by simp)
  | busHung ref hd hi ha es step hes hhit busy => exact step.eventsPermitted hscan
  | busDone ref hd hi hc ha u es step hes hpu hhit k d ht =>
    exact ((step.eventsPermitted hscan).settle i).of_eq (by simp [ht]) (by simp [ht])
  | frameDone hi ref hd u es step hes hhit busy o ht =>
    exact (step.eventsPermitted h).of_eq (by simp [ht]) (by simp [ht])

end

/-- Settles O43: of all a step can do (`step_shape`), only an instruction issues events. -/
theorem everyStepIssuesOnlyPermittedEvents : Obligations.EveryStepIssuesOnlyPermittedEvents := by
  intro s t h hst
  cases (step_shape hst).2 with
  | reset hr ht => exact h.of_eq (by simp [ht]) (by simp [ht])
  | waits hr ht => exact h.of_eq (by simp [ht]) (by simp [ht])
  | drops hr hb ht => exact h.of_eq (by simp [ht]) (by simp [ht])
  | illegal hr hb ht => exact h.of_eq (by simp [ht, illegalCommand]) (by simp [ht, illegalCommand])
  | frame hr hb i hi hx =>
    exact (exec_shape_of_next hx).eventsPermitted (h.of_eq (by simp) (by simp))
  | command hr hb i hi hx =>
    exact (exec_shape_of_next hx).eventsPermitted (h.of_eq (by simp) (by simp))

end Sys2Proof.Machine

/-! PROOF. 40_register_link.md: READ_REG and WRITE_REG (R135, R136), the masked address operand
(R132, R138), and a value written and read back over an ideal register file (R137). -/

namespace Sys2Proof

/-! ### The bytes of a frame and of a response -/

/-- A read frame's first byte is the address operand's low five bits (40_register_link.md R138). -/
theorem readByte_addrOperand (a8 : Byte) :
    readByte (Machine.addrOperand a8) = a8 &&& 0x1F#8 := by
  refine BitVec.eq_of_getLsbD_eq fun i hi => ?_
  rw [readByte, Machine.addrOperand, getLsbD_frameByte]
  interval_cases i <;> simp

/-- A write frame's first byte has the bit 0x20 beside them (R138). -/
theorem writeByte_addrOperand (a8 : Byte) :
    writeByte (Machine.addrOperand a8) = 0x20#8 ||| (a8 &&& 0x1F#8) := by
  refine BitVec.eq_of_getLsbD_eq fun i hi => ?_
  rw [writeByte, Machine.addrOperand, getLsbD_frameByte]
  interval_cases i <;> simp

end Sys2Proof

namespace Sys2Proof.Machine

/-- A byte answered with OK is the response word's low byte (30_encoding.md R105). -/
theorem responseWord_ok_byte (v : Byte) :
    responseWord .ok (v.zeroExtend 16) = 0x000000#24 ++ v := by
  have hv : v.toNat % 2 ^ 16 = v.toNat := Nat.mod_eq_of_lt (v.isLt.trans (by decide))
  refine BitVec.eq_of_toNat_eq ?_
  change (0x00#8 ++ 0#8 ++ v.zeroExtend 16).toNat = (0x000000#24 ++ v).toNat
  simp only [BitVec.toNat_append, BitVec.truncate_eq_setWidth, BitVec.toNat_setWidth, hv]
  simp

/-! ### The commands, every call answered -/

/-- The commands of the bus run once the device is attached (41_device_fsm.md R150). -/
theorem Fsm.allowsBus_of_ne {f : Fsm} (h : f ≠ .unattached) : f.allowsBus = true := by
  cases f with
  | unattached => exact absurd rfl h
  | attached | configured | listening => rfl

theorem Fsm.allowsBus_unattached {f : Fsm} (h : f = .unattached) : f.allowsBus = false := h ▸ rfl

@[simp] theorem nthXfer_respond (s : State) (k : Code) (d : Half) (n : Nat) :
    (s.respond k d).nthXfer n = s.nthXfer n := State.nthXfer_congr rfl rfl rfl n

@[simp] theorem answerRead_events (r : ReadResult) (s : State) :
    (answerRead r s).state.events = s.events := by
  cases r <;> rfl

section
variable {s : State} {ref : DevRef}

theorem wasRead_of_ok {a : RegAddr} {rx0 rx1 : Byte} (h : s.nthXfer 0 = .ok rx0 rx1) :
    wasRead ref a s =
      { s.popXfer with events := s.events ++ [.xfer ref (readByte a) s.cfg.filler] } := by
  simp [wasRead, h, XferAnswer.isErr]

theorem wasRead_of_err {a : RegAddr} (h : s.nthXfer 0 = .err) :
    wasRead ref a s =
      { s.popXfer with
        rdFail := true
        events := s.events ++ [.xfer ref (readByte a) s.cfg.filler] } := by
  simp [wasRead, h, XferAnswer.isErr]

theorem exec_readReg_of_unattached (a8 : Byte) (hf : s.fsm = .unattached) :
    exec (.readReg a8) s = .next (s.respond .errState 0) := by
  rw [exec, execReadReg, withDevice_refused (Fsm.allowsBus_unattached hf)]

theorem exec_writeReg_of_unattached (a8 v : Byte) (hf : s.fsm = .unattached) :
    exec (.writeReg a8 v) s = .next (s.respond .errState 0) := by
  rw [exec, execWriteReg, withDevice_refused (Fsm.allowsBus_unattached hf)]

theorem exec_readReg_of_fair (a8 : Byte) (hf : s.fsm ≠ .unattached) (hd : s.devref = some ref)
    (h : s.Fair) : exec (.readReg a8) s = .next (answerRead (readResult (s.nthXfer 0))
      (wasRead ref (addrOperand a8) s)).state := by
  rw [exec, execReadReg, withDevice_run hd (Fsm.allowsBus_of_ne hf), regRead_of_fair h,
    Ran.bind_done]

theorem exec_writeReg_of_fair (a8 v : Byte) (hf : s.fsm ≠ .unattached) (hd : s.devref = some ref)
    (h : s.Fair) : exec (.writeReg a8 v) s =
      .next ((wrote ref (addrOperand a8) v s).respond .ok 0) := by
  rw [exec, execWriteReg, withDevice_run hd (Fsm.allowsBus_of_ne hf), regWrite_of_fair h,
    Ran.bind_done, finish_state]

end

/-! ### The ideal register file -/

/-- A register file answers a read with what the write frame of that address has stored (R137). -/
theorem RegFile.value_after_write (f : RegFile) (ref : DevRef) (a : RegAddr) (v : Byte) :
    (f.after (.xfer ref (writeByte a) v)).value (readByte a) = v := by
  have hcmd : (writeByte a).extractLsb' 5 3 = 0b001#3 := frameCmd_frameByte _ a
  have hw : (writeByte a).extractLsb' 0 5 = a := frameAddr_frameByte _ a
  have hr : (readByte a).extractLsb' 0 5 = a := frameAddr_frameByte _ a
  simp [RegFile.after, RegFile.value, hcmd, hw, hr]

/-- Settles O27: the read starts from the state the write has answered in, so it meets the next
answer, and the file it is answered from holds the value at the one masked address. -/
theorem writeThenReadGivesTheValueBack : Obligations.WriteThenReadGivesTheValueBack := by
  intro f a8 v x0 x1 y0 s ref hf hd h _
  refine ⟨_, _, [.xfer ref (writeByte (addrOperand a8)) v], readByte (addrOperand a8),
    s.cfg.filler, exec_writeReg_of_fair a8 v hf hd h, exec_readReg_of_fair a8 hf hd h,
    rfl, rfl, answerRead_events _ _, fun hans => ?_⟩
  rw [nthXfer_respond, nthXfer_wrote, hans]
  have hv := RegFile.value_after_write f ref (addrOperand a8) v
  exact (responseWord_ok_byte _).trans (congrArg (0x000000#24 ++ ·) hv)

/-! ### The commands one by one -/

/-- Settles O24: the frame's answer, Ok or Err, fixes the response and the flag. -/
theorem readRegAnswersTheValueOrXferFail : Obligations.ReadRegAnswersTheValueOrXferFail := by
  refine ⟨fun w hw => decodeCommand_of_top (op := 0x4#4) hw, fun a8 s =>
    ⟨exec_readReg_of_unattached a8, fun ref hf hd h => ⟨fun rx0 rx1 ha => ?_, fun ha => ?_⟩⟩⟩
  · rw [State.xferAnswer_eq] at ha
    rw [exec_readReg_of_fair a8 hf hd h, ha, wasRead_of_ok ha, ← responseWord_ok_byte]
    rfl
  · rw [State.xferAnswer_eq] at ha
    rw [exec_readReg_of_fair a8 hf hd h, ha, wasRead_of_err ha]
    rfl

/-- Settles O25: the frame's answer reaches the write flag only. -/
theorem writeRegAnswersOkWhateverTheFrameMeets :
    Obligations.WriteRegAnswersOkWhateverTheFrameMeets := by
  refine ⟨fun w hw => decodeCommand_of_top (op := 0x5#4) hw, fun a8 v s =>
    ⟨exec_writeReg_of_unattached a8 v, fun ref hf hd h => ?_⟩⟩
  rw [exec_writeReg_of_fair a8 v hf hd h, State.xferAnswer_eq]
  rfl

/-- Settles O26: the bytes sent are those of `writeByte` and `readByte` at the masked address. -/
theorem addressOperandsAreMasked : Obligations.AddressOperandsAreMasked := by
  refine fun a8 v s ref hf hd h => ⟨⟨_, writeByte (addrOperand a8),
    exec_writeReg_of_fair a8 v hf hd h, rfl, writeByte_addrOperand a8, frameCmd_frameByte _ _⟩,
    ⟨_, exec_readReg_of_fair a8 hf hd h, ?_⟩⟩
  rw [answerRead_events, ← readByte_addrOperand]
  rfl

end Sys2Proof.Machine

/-! PROOF. 41_device_fsm.md: NOP (R151), ATTACH (R152), CONFIGURE (R154), POWER_UP (R155) and
READ_STATUS (R157), each with the whole state it ends in. -/

namespace Sys2Proof.Machine

/-! ### The STATUS word -/

/-- Which piece of state a bit of STATUS shows (10_state.md R49). -/
theorem getLsbD_statusWord (s : State) (i : Nat) : (statusWord s).getLsbD i =
    if i < 2 then s.fsm.code.getLsbD i
    else if i < 3 then (BitVec.ofBool s.attachFail).getLsbD (i - 2)
    else if i < 4 then (BitVec.ofBool s.rdFail).getLsbD (i - 3)
    else if i < 5 then (BitVec.ofBool s.wrFail).getLsbD (i - 4)
    else if i < 7 then s.ce.code.getLsbD (i - 5)
    else false := by
  change BitVec.getLsbD (w := 9 + 2 + 1 + 1 + 1 + 2) (0#9 ++ s.ce.code ++ BitVec.ofBool s.wrFail ++
    BitVec.ofBool s.rdFail ++ BitVec.ofBool s.attachFail ++ s.fsm.code) i = _
  simp only [BitVec.getLsbD_append, BitVec.getLsbD_zero, Nat.sub_sub]
  split_ifs <;> first | rfl | omega

section
variable (s : State)

theorem statusWord_fsm : (statusWord s).extractLsb' 0 2 = s.fsm.code := by
  refine BitVec.eq_of_getLsbD_eq fun i hi => ?_
  rw [BitVec.getLsbD_extractLsb', getLsbD_statusWord]
  interval_cases i <;> simp

theorem statusWord_attachFail : (statusWord s).getLsbD 2 = s.attachFail := by
  rw [getLsbD_statusWord]
  simp

theorem statusWord_rdFail : (statusWord s).getLsbD 3 = s.rdFail := by
  rw [getLsbD_statusWord]
  simp

theorem statusWord_wrFail : (statusWord s).getLsbD 4 = s.wrFail := by
  rw [getLsbD_statusWord]
  simp

theorem statusWord_ce : (statusWord s).extractLsb' 5 2 = s.ce.code := by
  refine BitVec.eq_of_getLsbD_eq fun i hi => ?_
  rw [BitVec.getLsbD_extractLsb', getLsbD_statusWord]
  interval_cases i <;> simp

theorem statusWord_unused : (statusWord s).extractLsb' 7 9 = 0#9 := by
  refine BitVec.eq_of_getLsbD_eq fun i hi => ?_
  rw [BitVec.getLsbD_extractLsb', getLsbD_statusWord]
  interval_cases i <;> simp

end

/-! ### ATTACH, its call answered -/

/-- The state ATTACH's answer is used in: the request is out and the answer is used up (R152). -/
theorem attachSent_popAttach (s : State) : (attachSent s).popAttach =
    { s.popAttach with
      ce := .low
      events := s.events ++ [.gpioMode s.cfg.enLine .output, .gpioLevel s.cfg.enLine .low,
        .attachReq s.cfg.busId s.cfg.csLine s.cfg.spiClkHz s.cfg.spiMode] } := by
  rw [← attachSent_events]
  rfl

theorem exec_attach_of_ne_unattached {s : State} (hf : s.fsm ≠ .unattached) :
    exec .attach s = .next (s.respond .errState 0) := by
  rw [exec, execAttach, if_neg hf]

theorem exec_attach_of_fair {s : State} (hf : s.fsm = .unattached) (h : s.Fair) :
    exec .attach s = .next (attachOutcome s.attachAnswer (attachSent s).popAttach).state := by
  have hsent : (attachSent s).Fair := (attachSent_hangAfter s).trans h
  rw [exec, execAttach, if_pos hf]
  rcases callAttach_cases s with ⟨hhang, _⟩ | ⟨_, hcall⟩
  · rw [h] at hhang
    cases hhang
  · rw [hcall, State.answered_of_fair hsent, Ran.bind_done]

/-! ### CONFIGURE and POWER_UP, every call answered -/

/-- CONFIGURE writes the bring-up state and nothing else (R154). -/
theorem raiseToConfigured_eq (u : State) : raiseToConfigured u =
    { u with fsm := if u.fsm = .attached then .configured else u.fsm } := by
  unfold raiseToConfigured
  split <;> rfl

/-- POWER_UP runs in the two bring-up states from CONFIGURED on (R150). -/
theorem Fsm.allowsPowerUp_iff (f : Fsm) :
    f.allowsPowerUp = true ↔ f = .configured ∨ f = .listening := by
  cases f <;> simp [Fsm.allowsPowerUp]

theorem Fsm.allowsPowerUp_eq_false_iff (f : Fsm) :
    f.allowsPowerUp = false ↔ f = .unattached ∨ f = .attached := by
  cases f <;> simp [Fsm.allowsPowerUp]

/-- The state after two answered write frames, one after the other. -/
theorem wrote_wrote (ref : DevRef) (a b : RegAddr) (v w : Byte) (s : State) :
    wrote ref b w (wrote ref a v s) =
      { s.popXfer.popXfer with
        events := s.events ++ [.xfer ref (writeByte a) v, .xfer ref (writeByte b) w]
        wrFail := s.wrFail || (s.nthXfer 0).isErr || (s.nthXfer 1).isErr } := by
  have hev : (wrote ref a v s).events ++ [.xfer ref (writeByte b) w] =
      s.events ++ [.xfer ref (writeByte a) v, .xfer ref (writeByte b) w] :=
    List.append_assoc _ _ _
  rw [wrote, nthXfer_wrote, hev]
  rfl

/-- The state POWER_UP's answered calls and the enable line leave, with its three events in order
(R155). -/
theorem driveHigh_emit_wrote (ref : DevRef) (a : RegAddr) (v : Byte) (us : Nat) (s : State) :
    driveHigh ((wrote ref a v s).emit (.delay us)) =
      { s.popXfer with
        ce := .high
        wrFail := s.wrFail || (s.nthXfer 0).isErr
        events := s.events ++
          [.xfer ref (writeByte a) v, .delay us, .gpioLevel s.cfg.enLine .high] } := by
  have hev : (driveHigh ((wrote ref a v s).emit (.delay us))).events = s.events ++
      [.xfer ref (writeByte a) v, .delay us, .gpioLevel s.cfg.enLine .high] := by
    simp [wrote]
  rw [← hev]
  rfl

section
variable {s : State} {ref : DevRef}

theorem exec_configure_of_unattached (hf : s.fsm = .unattached) :
    exec .configure s = .next (s.respond .errState 0) := by
  rw [exec, execConfigure, withDevice_refused (Fsm.allowsBus_unattached hf)]

theorem exec_configure_of_fair (hf : s.fsm ≠ .unattached) (hd : s.devref = some ref)
    (h : s.Fair) : exec .configure s =
      .next ((raiseToConfigured (wrote ref s.cfg.addrRfSetup s.cfg.valRfSetup
        (wrote ref s.cfg.addrEnAa s.cfg.valEnAa s))).respond .ok 0) := by
  rw [exec, execConfigure, withDevice_run hd (Fsm.allowsBus_of_ne hf), regWrite_of_fair h,
    Ran.bind_done, regWrite_of_fair (wrote_fair h), Ran.bind_done, finish_state]
  rfl

theorem exec_powerUp_of_not_configured (hf : s.fsm = .unattached ∨ s.fsm = .attached) :
    exec .powerUp s = .next (s.respond .errState 0) := by
  rw [exec, execPowerUp, withDevice_refused ((Fsm.allowsPowerUp_eq_false_iff _).2 hf)]

theorem exec_powerUp_of_fair (hf : s.fsm = .configured ∨ s.fsm = .listening)
    (hd : s.devref = some ref) (h : s.Fair) : exec .powerUp s =
      .next (((driveHigh ((wrote ref s.cfg.addrConfig s.cfg.valConfig s).emit
        (.delay Config.puSettleUs))).setFsm .listening).respond .ok 0) := by
  rw [exec, execPowerUp, withDevice_run hd ((Fsm.allowsPowerUp_iff _).2 hf), regWrite_of_fair h,
    Ran.bind_done, callDelay_of_fair (wrote_fair h), Ran.bind_done, finish_state]

end

/-! ### The commands of the controller one by one -/

/-- Settles O16: NOP is its response and nothing else. -/
theorem nopAnswersOkAndChangesNothing : Obligations.NopAnswersOkAndChangesNothing :=
  ⟨fun _ hw => decodeCommand_of_top (op := 0x0#4) hw, fun s => by
    rw [exec, execNop, State.respond_eq_givesResponse]
    rfl⟩

/-- Settles O17: the transport's answer, Ok or Err, fixes what ATTACH makes of the state its request
is sent in. -/
theorem attachBindsTheDeviceOrReportsTheFailure :
    Obligations.AttachBindsTheDeviceOrReportsTheFailure := by
  refine ⟨fun w hw => decodeCommand_of_top (op := 0x1#4) hw, fun s =>
    ⟨exec_attach_of_ne_unattached, fun hf h => ?_⟩⟩
  rw [exec_attach_of_fair hf h, attachSent_popAttach]
  refine ⟨fun ref ha => ?_, fun ha => ?_⟩
  · rw [ha]
    rfl
  · rw [ha]
    rfl

/-- Settles O18: the second write starts from the state the first one has answered in, and neither
answer reaches the bring-up state. -/
theorem configureWritesTwoRegistersAndNeverLowers :
    Obligations.ConfigureWritesTwoRegistersAndNeverLowers := by
  refine ⟨fun w hw => decodeCommand_of_top (op := 0x2#4) hw, fun s =>
    ⟨exec_configure_of_unattached, fun ref hf hd h => ?_⟩⟩
  rw [exec_configure_of_fair hf hd h, wrote_wrote, raiseToConfigured_eq]
  rfl

/-- Settles O19: the write's answer reaches the write flag only, so the wait and the enable line
follow it either way. -/
theorem powerUpWaitsThenDrivesTheEnableLineHigh :
    Obligations.PowerUpWaitsThenDrivesTheEnableLineHigh := by
  refine ⟨fun w hw => decodeCommand_of_top (op := 0x3#4) hw, fun s =>
    ⟨exec_powerUp_of_not_configured, fun ref hf hd h => ?_⟩⟩
  rw [exec_powerUp_of_fair hf hd h, driveHigh_emit_wrote]
  rfl

/-- Settles O20: DATA is STATUS, whose bits are read off one piece of the state at a time. -/
theorem readStatusShowsTheStateBitByBit : Obligations.ReadStatusShowsTheStateBitByBit := by
  refine ⟨fun w hw => decodeCommand_of_top (op := 0xB#4) hw, fun s =>
    ⟨statusWord s, rfl, ?_, statusWord_attachFail s, statusWord_rdFail s, statusWord_wrFail s,
      ?_, statusWord_unused s⟩⟩
  · rw [statusWord_fsm]
    cases s.fsm <;> rfl
  · rw [statusWord_ce]
    cases s.ce <;> rfl

end Sys2Proof.Machine

/-! PROOF. 42_band_scanner.md: the window (R182), BUSY_TEST (R181), SWEEP (R184, R190), CYCLE (R188,
R189), and the two commands that only touch the hit table (R187, R196). -/

namespace Sys2Proof.Machine

/-! ### The window -/

theorem mem_windowChannels {b m : Nat} {c : Channel} :
    c ∈ windowChannels b m ↔ b ≤ c.val ∧ c.val < min (b + m) 126 := by
  simp [windowChannels, windowEnd, Config.numChannels]

theorem windowChannels_pairwise (b m : Nat) : (windowChannels b m).Pairwise (· < ·) :=
  (List.pairwise_lt_finRange 126).filter _

/-- Settles O31: a window is a filter of the ascending list of all channels, and its numbers are the
range from its start on. -/
theorem windowSelectsItsChannelsInOrder : Obligations.WindowSelectsItsChannelsInOrder :=
  fun b m _ _ => ⟨fun _ => mem_windowChannels, windowChannels_pairwise b m,
    (windowChannels_length b m).trans (windowSize_eq b m), windowSize_eq b m⟩

/-- The window as the channels that meet both bounds at once. -/
theorem windowChannels_eq_filter (b m : Nat) : windowChannels b m =
    (List.finRange 126).filter fun c => decide (b ≤ c.val ∧ c.val < min (b + m) 126) := by
  simp only [windowChannels, windowEnd, Config.numChannels, Bool.decide_and]
  rfl

theorem windowSize_le (b m : Nat) : windowSize b m ≤ 126 := by
  rw [windowSize_eq]
  omega

/-- The busy tests of a window are on the numbers from its start on (R182, R183). -/
theorem busyTestEvents_window (cfg : Cfg) (ref : DevRef) (b m : Nat) :
    (windowChannels b m).flatMap (busyTestEvents cfg ref) =
      (List.range' b (windowSize b m)).flatMap fun c =>
        [.xfer ref (0b001#3 ++ cfg.addrRfCh) (BitVec.ofNat 8 c), .delay 150,
          .xfer ref (0b000#3 ++ cfg.addrRpd) cfg.filler] := by
  rw [← windowChannels_val, List.flatMap_map]
  rfl

/-! ### Responses -/

/-- DATA of an OK response stands in the low half, with 0 above it (30_encoding.md R105, R106). -/
theorem responseWord_ok (d : Half) : responseWord .ok d = 0x0000#16 ++ d := by
  refine BitVec.eq_of_toNat_eq ?_
  change (0x00#8 ++ 0#8 ++ d).toNat = (0x0000#16 ++ d).toNat
  simp

/-- A number of channels as DATA of an OK response (R184, R188): it fits, so nothing is cut off. -/
theorem responseWord_ok_windowSize (b m : Nat) :
    responseWord .ok (BitVec.ofNat 16 (windowSize b m)) = BitVec.ofNat 32 (windowSize b m) := by
  have hle := windowSize_le b m
  have h16 : windowSize b m % 2 ^ 16 = windowSize b m := Nat.mod_eq_of_lt (by omega)
  have h32 : windowSize b m % 2 ^ 32 = windowSize b m := Nat.mod_eq_of_lt (by omega)
  refine BitVec.eq_of_toNat_eq ?_
  rw [responseWord_ok, BitVec.toNat_append, BitVec.toNat_ofNat, BitVec.toNat_ofNat,
    BitVec.toNat_ofNat, h16, h32]
  simp

theorem KeepsBringup.respond {s u : State} (h : KeepsBringup s u) (k : Code) (d : Half) :
    KeepsBringup s (u.respond k d) :=
  ⟨h.cfg, h.fsm, h.devref, h.attachFail, h.ce, h.cmdIn, h.hostIn, h.frameIn, h.frameOut, h.attachIn,
    h.hangAfter⟩

/-- A scan that answers its number of channels ends with that one response (R105, R184, R188). -/
theorem Swept.answered_windowSize {ref : DevRef} {s u : State} {es : List Event} {n : Nat}
    (h : Swept ref s u es n) (b m : Nat) :
    Answered s (u.respond .ok (BitVec.ofNat 16 (windowSize b m)))
      (BitVec.ofNat 32 (windowSize b m)) := by
  rw [← responseWord_ok_windowSize]
  exact ⟨rfl, rfl, rfl, congrArg (· ++ _) h.responses⟩

/-! ### Refusals -/

theorem Fsm.allowsScan_of_ne {f : Fsm} (h : f ≠ .listening) : f.allowsScan = false := by
  cases f with
  | listening => exact absurd rfl h
  | unattached | attached | configured => rfl

theorem Fsm.allowsScan_listening {f : Fsm} (h : f = .listening) : f.allowsScan = true := h ▸ rfl

theorem channelOperand_of_lt {c : Byte} (h : c.toNat < 126) :
    channelOperand c = some ⟨c.toNat, h⟩ := dif_pos h

theorem channelOperand_of_ge {c : Byte} (h : 126 ≤ c.toNat) : channelOperand c = none :=
  dif_neg (Nat.not_lt.2 h)

section
variable {s : State}

theorem exec_busyTest_of_not_listening (c : Byte) (hf : s.fsm ≠ .listening) :
    exec (.busyTest c) s = .next (s.respond .errState 0) := by
  rw [exec, execBusyTest, withDevice_refused (Fsm.allowsScan_of_ne hf)]

theorem exec_sweep_of_not_listening (b m : Byte) (hf : s.fsm ≠ .listening) :
    exec (.sweep b m) s = .next (s.respond .errState 0) := by
  rw [exec, execSweep, withDevice_refused (Fsm.allowsScan_of_ne hf)]

theorem exec_cycle_of_not_listening (hf : s.fsm ≠ .listening) :
    exec .cycle s = .next (s.respond .errState 0) := by
  rw [exec, execCycle, withDevice_refused (Fsm.allowsScan_of_ne hf)]

end

/-! ### The commands of the scanner while listening -/

/-- Clearing the table makes no call: beside the counters it is a scan of no channel (R188). -/
theorem clearHits_swept (ref : DevRef) (s : State) : Swept ref s s.clearHits [] 0 where
  keeps := ⟨rfl, rfl, rfl, rfl, rfl, rfl, rfl, rfl, rfl, rfl, rfl⟩
  resp := rfl
  busy := rfl
  respWaiting := rfl
  responses := rfl
  events := (List.append_nil _).symm
  wrFail := by simp
  rdFail := by simp
  answers m := by
    rw [Nat.mul_zero, Nat.zero_add]
    exact State.nthXfer_congr rfl rfl rfl m

section
variable {s : State} {ref : DevRef}

theorem exec_busyTest_of_range {c : Byte} (hf : s.fsm = .listening) (hd : s.devref = some ref)
    (hc : 126 ≤ c.toNat) : exec (.busyTest c) s = .next (s.respond .errRange 0) := by
  rw [exec, execBusyTest, withDevice_run hd (Fsm.allowsScan_listening hf), channelOperand_of_ge hc]
  rfl

theorem exec_busyTest_of_fair {c : Byte} (hf : s.fsm = .listening) (hd : s.devref = some ref)
    (hc : c.toNat < 126) (h : s.Fair) : exec (.busyTest c) s =
      .next (answerBusy (busyOf (readResult (s.nthXfer 1))) (tested ref ⟨c.toNat, hc⟩ s)).state := by
  rw [exec, execBusyTest, withDevice_run hd (Fsm.allowsScan_listening hf), channelOperand_of_lt hc]
  change Host.Outcome.next ((busyTest ref ⟨c.toNat, hc⟩ s).bind answerBusy).state = _
  rw [busyTest_of_fair h, Ran.bind_done]

/-- SWEEP is one sweep of its window and the answer of its size (R184). -/
theorem exec_sweep_of_fair (b m : Byte) (hf : s.fsm = .listening) (hd : s.devref = some ref)
    (h : s.Fair) :
    ∃ u, exec (.sweep b m) s =
        .next (u.respond .ok (BitVec.ofNat 16 (windowSize b.toNat m.toNat))) ∧
      Swept ref s u ((windowChannels b.toNat m.toNat).flatMap (busyTestEvents s.cfg ref))
        (windowSize b.toNat m.toNat) ∧
      ∀ c : Channel, u.hit[c] =
        if b.toNat ≤ c.val ∧ c.val < windowEnd b.toNat m.toNat ∧
          (s.nthXfer (2 * (c.val - b.toNat) + 1)).isBusy = true
        then satInc s.hit[c] else s.hit[c] := by
  obtain ⟨u, hu, hsw, hhit⟩ := sweepOnce_of_fair (ref := ref) (b := b.toNat) (m := m.toNat) h
  refine ⟨u, ?_, hsw, hhit⟩
  rw [exec, execSweep, withDevice_run hd (Fsm.allowsScan_listening hf), hu, Ran.bind_done,
    finish_state]

/-- CYCLE is its sweeps from a cleared table and the answer of its window's size (R188). With at most
65535 sweeps no counter saturates, so each one is an exact number of sweeps (R189). -/
theorem exec_cycle_of_fair (hf : s.fsm = .listening) (hd : s.devref = some ref) (h : s.Fair)
    (hk : s.cfg.sweepsPerCycle ≤ 65535) :
    ∃ u, exec .cycle s =
        .next (u.respond .ok (BitVec.ofNat 16 (windowSize s.cfg.winStart s.cfg.winCount))) ∧
      Swept ref s u
        (List.replicate s.cfg.sweepsPerCycle ((windowChannels s.cfg.winStart s.cfg.winCount).flatMap
          (busyTestEvents s.cfg ref))).flatten
        (s.cfg.sweepsPerCycle * windowSize s.cfg.winStart s.cfg.winCount) ∧
      ∀ c : Channel, u.hit[c].toNat =
        if s.cfg.winStart ≤ c.val ∧ c.val < windowEnd s.cfg.winStart s.cfg.winCount then
          (List.range s.cfg.sweepsPerCycle).countP fun j => (s.nthXfer (2 *
            (j * windowSize s.cfg.winStart s.cfg.winCount + (c.val - s.cfg.winStart)) + 1)).isBusy
        else 0 := by
  have hclear : ∀ c : Channel, s.clearHits.hit[c] = 0 := s.readHit_clearHits
  have hsw0 := clearHits_swept ref s
  obtain ⟨u, hu, hsw, hhit⟩ := sweepRepeat_of_fair (ref := ref) (b := s.cfg.winStart)
    (m := s.cfg.winCount) s.cfg.sweepsPerCycle (s := s.clearHits) h
    fun c => by rw [hclear]; simpa using hk
  refine ⟨u, ?_, by simpa using hsw0.trans hsw, fun c => ?_⟩
  · rw [exec, execCycle, withDevice_run hd (Fsm.allowsScan_listening hf), hu, Ran.bind_done,
      finish_state, hsw.keeps.cfg, State.clearHits_cfg]
  · simpa [hclear, hsw0.answers] using hhit c

end

/-! ### BUSY_TEST -/

/-- The whole state after an answered busy test (R180). -/
theorem tested_eq (ref : DevRef) (c : Channel) (s : State) : tested ref c s =
    { s.popXfer.popXfer with
      wrFail := s.wrFail || (s.nthXfer 0).isErr
      rdFail := s.rdFail || (s.nthXfer 1).isErr
      events := s.events ++ busyTestEvents s.cfg ref c } := by
  have hsw := tested_swept ref c s
  have hrd : (tested ref c s).rdFail = (s.rdFail || (s.nthXfer 1).isErr) := by simp [hsw.rdFail]
  rw [← hsw.events, ← hrd]
  rfl

/-- An RPD read answered Ok is answered with bit 0 of its value (R181). -/
theorem answerBusy_ok (rx0 v : Byte) (u : State) :
    (answerBusy (busyOf (readResult (.ok rx0 v))) u).state =
      u.givesResponse (if v.getLsbD 0 then 0x00000001#32 else 0x00000000#32) := by
  cases hv : v.getLsbD 0 <;> simp only [answerBusy, readResult, busyOf, hv] <;> rfl

theorem answerBusy_err (u : State) :
    (answerBusy (busyOf (readResult .err)) u).state = u.givesResponse 0x05000000#32 := rfl

/-- Settles O30: the checks are those of `withDevice` and of `channelOperand`, in that order, and the
RPD read's answer alone fixes the response. -/
theorem busyTestTestsOneChannel : Obligations.BusyTestTestsOneChannel := by
  refine ⟨fun w hw => decodeCommand_of_top (op := 0x6#4) hw, fun c s =>
    ⟨exec_busyTest_of_not_listening c, fun ref => exec_busyTest_of_range,
      fun ref hf hd hc h => ?_⟩⟩
  have hlt : c.toNat < 126 := Nat.lt_succ_of_le hc
  have hev : busyTestEvents s.cfg ref ⟨c.toNat, hlt⟩ =
      [.xfer ref (0b001#3 ++ s.cfg.addrRfCh) c, .delay 150,
        .xfer ref (0b000#3 ++ s.cfg.addrRpd) s.cfg.filler] := by
    rw [busyTestEvents, BitVec.ofNat_toNat, BitVec.setWidth_eq]
  rw [exec_busyTest_of_fair hf hd hlt h, tested_eq, hev]
  cases s.nthXfer 1 with
  | ok rx0 v => rw [answerBusy_ok]
  | err => rw [answerBusy_err]

/-! ### SWEEP and CYCLE -/

/-- Settles O32: the one sweep of the window, whose fields the response leaves as they are. -/
theorem sweepCountsBusyChannelsOnce : Obligations.SweepCountsBusyChannelsOnce := by
  refine ⟨fun w hw => decodeCommand_of_top (op := 0x7#4) hw, fun b m s =>
    ⟨exec_sweep_of_not_listening b m, fun ref hf hd h => ?_⟩⟩
  obtain ⟨u, hexec, hsw, hhit⟩ := exec_sweep_of_fair b m hf hd h
  refine ⟨_, _, hexec, windowSize_eq _ _, hsw.answered_windowSize _ _, hsw.keeps.respond _ _, hhit,
    ?_, hsw.wrFail, hsw.rdFail, fun i => (nthXfer_respond ..).trans (hsw.answers i)⟩
  rw [← windowChannels_eq_filter]
  exact hsw.events

/-- Settles O33: the window (100, 50) is the range of 26 channels from 100 on, and no sweep counts
below its start. -/
theorem sweepOf100And50TouchesChannels100To125 :
    Obligations.SweepOf100And50TouchesChannels100To125 := by
  intro s ref hf hd h
  obtain ⟨u, hexec, hsw, hhit⟩ := exec_sweep_of_fair 100#8 50#8 hf hd h
  exact ⟨_, hexec, rfl,
    hsw.events.trans (congrArg (s.events ++ ·) (busyTestEvents_window s.cfg ref 100 50)),
    fun c hc => (hhit c).trans (if_neg fun hw => Nat.not_lt.2 hw.1 hc)⟩

/-- Settles O35: R41 bounds the number of sweeps by what a counter holds, and the sweeps start from a
cleared table, so the counts are exact. -/
theorem cycleCountsTheSweepsThatFoundEachChannelBusy :
    Obligations.CycleCountsTheSweepsThatFoundEachChannelBusy := by
  refine ⟨fun w hw => decodeCommand_of_top (op := 0x9#4) hw, fun s =>
    ⟨exec_cycle_of_not_listening, fun ref hf hd h hwf => ?_⟩⟩
  obtain ⟨_, _, hk, _⟩ := s.cfg.wellFormed_iff.1 hwf
  obtain ⟨u, hexec, hsw, hhit⟩ := exec_cycle_of_fair hf hd h hk
  refine ⟨_, _, _, _, _, hexec, rfl, rfl, windowSize_eq _ _, rfl, hsw.answered_windowSize _ _,
    hsw.keeps.respond _ _, hhit, ?_, hsw.wrFail, hsw.rdFail,
    fun i => (nthXfer_respond ..).trans (hsw.answers i)⟩
  rw [← windowChannels_eq_filter]
  exact hsw.events

/-! ### CLEAR_TABLE and READ_HIT -/

/-- Settles O34: no precondition is checked, and `clearHits` writes the table alone. -/
theorem clearTableZeroesEveryCounter : Obligations.ClearTableZeroesEveryCounter :=
  ⟨fun _ hw => decodeCommand_of_top (op := 0x8#4) hw, fun s =>
    ⟨s.clearHits.respond .ok 0, rfl, s.readHit_clearHits, rfl⟩⟩

/-- Settles O36: the operand is a channel, whose counter is DATA, or it is none. -/
theorem readHitAnswersTheCounter : Obligations.ReadHitAnswersTheCounter := by
  refine ⟨fun w hw => decodeCommand_of_top (op := 0xA#4) hw, fun c s => ⟨fun h => ?_, fun h => ?_⟩⟩
  · rw [exec, execReadHit, channelOperand_of_lt h, ← responseWord_ok]
    rfl
  · rw [exec, execReadHit, channelOperand_of_ge h]
    rfl

end Sys2Proof.Machine

/-! PROOF. 60_exceptions.md: an ILLEGAL word only answers ERR_ILLEGAL (R212), the table of
41_device_fsm.md R150 decides which commands are refused (R213), and the instances of a system do not
interact (R222). -/

namespace Sys2Proof.Machine

/-! ### Illegal words -/

theorem runCommand_of_error {w : Word} {e : DecodeError} (h : decodeCommand w = .error e)
    (s : State) : runCommand w s = .next (illegalCommand s) := by
  rw [runCommand, h]

/-- Settles O5: such a word decodes to an error (`everyWordIsOneCommandOrIllegal`), which the command
port answers itself. -/
theorem illegalWordOnlyAnswersErrIllegal : Obligations.IllegalWordOnlyAnswersErrIllegal := by
  intro w s hbad
  obtain ⟨e, he⟩ := (everyWordIsOneCommandOrIllegal w).1 hbad
  exact runCommand_of_error he s

/-! ### Refused commands -/

/-- POWER_UP's own check is its row of the table of R150. -/
theorem Fsm.allowsPowerUp_eq (f : Fsm) : f.allowsPowerUp = allowedIn .powerUp f := by
  cases f <;> rfl

/-- Where the table of R150 does not allow an instruction, it answers ERR_STATE and nothing else. -/
theorem exec_of_not_allowed {i : Instr} {s : State} (h : allowedIn i s.fsm = false) :
    exec i s = .next (s.respond .errState 0) := by
  cases i with
  | nop | clearTable | readHit | readStatus | rFrame | wFrame => simp [allowedIn] at h
  | attach => exact exec_attach_of_ne_unattached (by simpa [allowedIn] using h)
  | configure => exact exec_configure_of_unattached (by simpa [allowedIn] using h)
  | powerUp => rw [exec, execPowerUp, withDevice_refused ((Fsm.allowsPowerUp_eq _).trans h)]
  | readReg a8 => exact exec_readReg_of_unattached a8 (by simpa [allowedIn] using h)
  | writeReg a8 v => exact exec_writeReg_of_unattached a8 v (by simpa [allowedIn] using h)
  | busyTest c => exact exec_busyTest_of_not_listening c (by simpa [allowedIn] using h)
  | sweep b m => exact exec_sweep_of_not_listening b m (by simpa [allowedIn] using h)
  | cycle => exact exec_cycle_of_not_listening (by simpa [allowedIn] using h)

/-! ### Allowed commands -/

/-- The state is one in which a command has just ended, with a code other than ERR_STATE. -/
def EndedNotErrState (t : State) : Prop :=
  ∃ (u : State) (k : Code) (d : Half), k ≠ .errState ∧ t = u.respond k d

theorem endedNotErrState_respond {k : Code} (hk : k ≠ .errState) (d : Half) (u : State) :
    EndedNotErrState (u.respond k d) := ⟨u, k, d, hk, rfl⟩

theorem endedNotErrState_attachOutcome (a : AttachAnswer) (u : State) :
    EndedNotErrState (attachOutcome a u).state := by
  cases a with
  | ok ref => exact endedNotErrState_respond (by decide) _ _
  | err => exact endedNotErrState_respond (by decide) _ _

theorem endedNotErrState_answerRead (r : ReadResult) (u : State) :
    EndedNotErrState (answerRead r u).state := by
  cases r with
  | value v => exact endedNotErrState_respond (by decide) _ _
  | failed => exact endedNotErrState_respond (by decide) _ _

theorem endedNotErrState_answerBusy (b : BusyResult) (u : State) :
    EndedNotErrState (answerBusy b u).state := by
  unfold answerBusy
  split
  · exact endedNotErrState_respond (by decide) _ _
  · exact endedNotErrState_respond (by decide) _ _

/-- CODE of a response is the number of its code (30_encoding.md R105). -/
theorem respCode_respond (u : State) (k : Code) (d : Half) :
    (u.respond k d).respCode = k.toByte := by
  refine BitVec.eq_of_getLsbD_eq fun i hi => ?_
  rw [State.respCode, State.respond_resp, BitVec.getLsbD_extractLsb']
  change (decide (i < 8) && BitVec.getLsbD (w := 8 + 8 + 16) (k.toByte ++ 0#8 ++ d) (24 + i)) = _
  simp only [BitVec.getLsbD_append, BitVec.getLsbD_zero]
  interval_cases i <;> simp

/-- No other code has ERR_STATE's number (R106). -/
theorem Code.toByte_ne_errState {k : Code} (h : k ≠ .errState) : k.toByte ≠ 0x02#8 := by
  cases k with
  | errState => exact absurd rfl h
  | ok | errIllegal | errRange | attachFail | xferFail => decide

theorem EndedNotErrState.not_busy {t : State} (h : EndedNotErrState t) : t.busy = false := by
  obtain ⟨u, k, d, _, rfl⟩ := h
  rfl

theorem EndedNotErrState.respCode_ne {t : State} (h : EndedNotErrState t) :
    t.respCode ≠ 0x02#8 := by
  obtain ⟨u, k, d, hk, rfl⟩ := h
  rw [respCode_respond]
  exact Code.toByte_ne_errState hk

/-- From ATTACHED on there is a device (10_state.md R58). -/
theorem BringupInv.exists_devref {s : State} (h : BringupInv s) (hf : s.fsm ≠ .unattached) :
    ∃ ref, s.devref = some ref :=
  Option.ne_none_iff_exists'.1 fun hd => hf (h.devref_none.1 hd)

section
variable {s : State}

theorem execReadHit_ended (c : Byte) : ∃ t, exec (.readHit c) s = .next t ∧ EndedNotErrState t := by
  refine ⟨_, rfl, ?_⟩
  split
  · exact endedNotErrState_respond (by decide) _ _
  · exact endedNotErrState_respond (by decide) _ _

/-- A channel operand out of range is ERR_RANGE, one in range is tested (42_band_scanner.md R181). -/
theorem execBusyTest_ended {ref : DevRef} (c : Byte) (hf : s.fsm = .listening)
    (hd : s.devref = some ref) (h : s.Fair) :
    ∃ t, exec (.busyTest c) s = .next t ∧ EndedNotErrState t := by
  rcases Nat.lt_or_ge c.toNat 126 with hc | hc
  · exact ⟨_, exec_busyTest_of_fair hf hd hc h, endedNotErrState_answerBusy _ _⟩
  · exact ⟨_, exec_busyTest_of_range hf hd hc, endedNotErrState_respond (by decide) _ _⟩

/-- CYCLE ends for any number of sweeps, well-formed configuration or not. -/
theorem execCycle_ended {ref : DevRef} (hf : s.fsm = .listening) (hd : s.devref = some ref)
    (h : s.Fair) : ∃ t, exec .cycle s = .next t ∧ EndedNotErrState t := by
  obtain ⟨_, u, _, hrun, _⟩ := sweepRepeat_cuts ref s.cfg.winStart s.cfg.winCount
    s.cfg.sweepsPerCycle s.clearHits h
  have hexec : exec .cycle s =
      .next (u.respond .ok (BitVec.ofNat 16 (windowSize u.cfg.winStart u.cfg.winCount))) := by
    rw [exec, execCycle, withDevice_run hd (Fsm.allowsScan_listening hf), hrun, Ran.bind_done,
      finish_state]
  exact ⟨_, hexec, endedNotErrState_respond (by decide) _ _⟩

/-- Where the table of R150 allows a command and every call is answered, the command ends. -/
theorem exec_ended_of_allowed {i : Instr} (hi : isCommand i = true)
    (ha : allowedIn i s.fsm = true) (hinv : BringupInv s) (h : s.Fair) :
    ∃ t, exec i s = .next t ∧ EndedNotErrState t := by
  have hattached : s.fsm ≠ .unattached → ∃ ref, s.devref = some ref := hinv.exists_devref
  have hlistening : s.fsm = .listening → ∃ ref, s.devref = some ref := fun hf =>
    hattached (by simp [hf])
  cases i with
  | rFrame | wFrame => simp [isCommand] at hi
  | nop | clearTable | readStatus => exact ⟨_, rfl, endedNotErrState_respond (by decide) _ _⟩
  | readHit c => exact execReadHit_ended c
  | attach =>
    have hf : s.fsm = .unattached := by simpa [allowedIn] using ha
    exact ⟨_, exec_attach_of_fair hf h, endedNotErrState_attachOutcome _ _⟩
  | configure =>
    have hf : s.fsm ≠ .unattached := by simpa [allowedIn] using ha
    obtain ⟨ref, hd⟩ := hattached hf
    exact ⟨_, exec_configure_of_fair hf hd h, endedNotErrState_respond (by decide) _ _⟩
  | powerUp =>
    have hf : s.fsm = .configured ∨ s.fsm = .listening := by simpa [allowedIn] using ha
    obtain ⟨ref, hd⟩ := hattached (by rcases hf with hf | hf <;> simp [hf])
    exact ⟨_, exec_powerUp_of_fair hf hd h, endedNotErrState_respond (by decide) _ _⟩
  | readReg a8 =>
    have hf : s.fsm ≠ .unattached := by simpa [allowedIn] using ha
    obtain ⟨ref, hd⟩ := hattached hf
    exact ⟨_, exec_readReg_of_fair a8 hf hd h, endedNotErrState_answerRead _ _⟩
  | writeReg a8 v =>
    have hf : s.fsm ≠ .unattached := by simpa [allowedIn] using ha
    obtain ⟨ref, hd⟩ := hattached hf
    exact ⟨_, exec_writeReg_of_fair a8 v hf hd h, endedNotErrState_respond (by decide) _ _⟩
  | busyTest c =>
    have hf : s.fsm = .listening := by simpa [allowedIn] using ha
    obtain ⟨ref, hd⟩ := hlistening hf
    exact execBusyTest_ended c hf hd h
  | sweep b m =>
    have hf : s.fsm = .listening := by simpa [allowedIn] using ha
    obtain ⟨ref, hd⟩ := hlistening hf
    obtain ⟨u, hexec, _⟩ := exec_sweep_of_fair b m hf hd h
    exact ⟨_, hexec, endedNotErrState_respond (by decide) _ _⟩
  | cycle =>
    have hf : s.fsm = .listening := by simpa [allowedIn] using ha
    obtain ⟨ref, hd⟩ := hlistening hf
    exact execCycle_ended hf hd h

end

/-- Settles O21: the bring-up state alone refuses, since the invariant puts a device wherever the
table asks for one. -/
theorem preconditionTableHolds : Obligations.PreconditionTableHolds := by
  refine fun i s hi => ⟨exec_of_not_allowed, fun ha hinv h => ?_⟩
  obtain ⟨t, hexec, hended⟩ := exec_ended_of_allowed hi ha hinv h
  exact ⟨t, hexec, hended.not_busy, hended.respCode_ne⟩

/-! ### Several instances -/

/-- Everything a step of a system can have done: the turn is nobody's and passes, or the one that has
it takes its own step. -/
theorem System.step_cases {y z : System} (h : y.step = .next z) :
    (z.instances = y.instances ∧ ∀ k, y.turns.head? = some k → y.instances[k]? = none) ∨
    (∃ k s t, y.turns.head? = some k ∧ y.instances[k]? = some s ∧
      Sys2Proof.Machine.step s = .next t ∧ z = y.update k t) := by
  unfold System.step at h
  split at h
  · split at h
    next hturns =>
      cases h
      exact .inl ⟨rfl, by simp [hturns]⟩
    next k _ hturns =>
      have hk : y.turns.head? = some k := by simp [hturns]
      split at h
      next hnone =>
        cases h
        exact .inl ⟨rfl, fun j hj => Option.some.inj (hk.symm.trans hj) ▸ hnone⟩
      next s hs =>
        split at h
        next t ht =>
          cases h
          exact .inr ⟨k, s, t, hk, hs, ht, rfl⟩
        · cases h
        · cases h
  · cases h

/-- Settles O9: a system's step writes the list of instances at the turn's place only, with what the
state found there steps to. -/
theorem instancesDoNotInteract : Obligations.InstancesDoNotInteract := by
  intro y z h
  rcases System.step_cases h with ⟨hsame, hnone⟩ | ⟨k, s, t, hk, hs, ht, rfl⟩
  · refine ⟨by rw [hsame], fun j _ => by rw [hsame], fun k s hk hs => ?_⟩
    rw [hnone k hk] at hs
    cases hs
  · obtain ⟨hlt, _⟩ := List.getElem?_eq_some_iff.1 hs
    refine ⟨List.length_set, fun j hj => ?_, fun k' s' hk' hs' => ?_⟩
    · exact List.getElem?_set_ne fun hkj => hj (hk.trans (congrArg some hkj))
    · obtain rfl : k = k' := Option.some.inj (hk.symm.trans hk')
      obtain rfl : s = s' := Option.some.inj (hs.symm.trans hs')
      exact ⟨t, ht, List.getElem?_set_self hlt⟩

end Sys2Proof.Machine

/-! PROOF. 70_reset_and_hazards.md: the reset in any state (R240). -/

namespace Sys2Proof.Machine

/-- Nothing stands in the way of a reset but an ill-formed configuration: not the command in progress,
a frame at the framer or a response that is not taken. -/
theorem step_of_reset {s : State} (hw : s.cfg.wellFormed = true)
    (hr : s.hostIn.head? = some .reset) : step s = .next s.hostMoved.applyReset := by
  obtain ⟨t, ht⟩ := step_of_wellFormed hw
  rw [ht, step_reset ht hr]

theorem State.applyReset_hit_getElem (s : State) (c : Channel) : s.applyReset.hit[c] = 0 := by
  simp

/-- Settles O2: the step is the reset of the state after the host's move, and that move writes neither
the configuration nor the trace. -/
theorem resetSetsEveryFieldAndIssuesNothing : Obligations.ResetSetsEveryFieldAndIssuesNothing := by
  intro s hw hr
  exact ⟨s.hostMoved.applyReset, step_of_reset hw hr, rfl, rfl, rfl, rfl, rfl, rfl,
    s.hostMoved.applyReset_hit_getElem, rfl, rfl, rfl, rfl, rfl, rfl⟩

end Sys2Proof.Machine

/-! PROOF. 30_encoding.md: decoding undoes encoding (R100, R104, R111, R112), every pair of bytes
(R110 to R113), the assembler (R114) and the pseudo-commands (R115). -/

namespace Sys2Proof

/-! ### Decoding undoes encoding -/

/-- A command word decodes by its own fields: RSV is 0 in it. -/
theorem decodeCommand_commandWord (op : BitVec 4) (fa fb fc : Byte) :
    decodeCommand (commandWord op fa fb fc) = commandOf op fa fb fc := by
  rw [decodeCommand_of_rsv_zero (rsvField_commandWord ..), opField_commandWord, faField_commandWord,
    fbField_commandWord, fcField_commandWord]

theorem decodeFrame_of_read {tx0 : Byte} (h : frameCmd tx0 = 0b000#3) (tx1 : Byte) :
    decodeFrame tx0 tx1 = .ok (.rFrame (frameAddr tx0)) := if_pos h

theorem decodeFrame_of_write {tx0 : Byte} (h : frameCmd tx0 = 0b001#3) (tx1 : Byte) :
    decodeFrame tx0 tx1 = .ok (.wFrame (frameAddr tx0) tx1) := by
  rw [decodeFrame, if_neg (by simp [h]), if_pos h]

theorem decodeFrame_of_neither {tx0 : Byte} (hr : frameCmd tx0 ≠ 0b000#3)
    (hw : frameCmd tx0 ≠ 0b001#3) (tx1 : Byte) : decodeFrame tx0 tx1 = .error .notAFrame := by
  rw [decodeFrame, if_neg hr, if_neg hw]

/-- Settles O11: each field of an encoded form is read back from where the encoder puts it. -/
theorem decodeOfEncodeIsTheInstruction : Obligations.DecodeOfEncodeIsTheInstruction := by
  intro filler i
  cases i with
  | rFrame a =>
    refine (decodeFrame_of_read (frameCmd_frameByte _ a) filler).trans ?_
    rw [frameAddr_frameByte]
  | wFrame a v =>
    refine (decodeFrame_of_write (frameCmd_frameByte _ a) v).trans ?_
    rw [frameAddr_frameByte]
  | nop | attach | configure | powerUp | readReg | writeReg | busyTest | sweep | clearTable | cycle
  | readHit | readStatus => exact decodeCommand_commandWord _ _ _ _

/-- Settles O52: the decoder looks at the command bits of the first byte alone. -/
theorem everyPairOfBytesIsOneFrameOrNone : Obligations.EveryPairOfBytesIsOneFrameOrNone :=
  fun _ tx1 => ⟨fun h => decodeFrame_of_read h tx1, fun h => decodeFrame_of_write h tx1,
    fun hr hw => ⟨_, decodeFrame_of_neither hr hw tx1⟩⟩

/-- Settles O10: a word is decoded by its bits [31:24], a pair of bytes by the first one's command
bits. -/
theorem specWordsDecode : Obligations.SpecWordsDecode :=
  ⟨decodeCommand_of_top (op := 0x0#4) rfl, decodeCommand_of_top (op := 0x1#4) rfl,
    decodeCommand_of_top (op := 0x5#4) rfl, decodeCommand_of_top (op := 0x6#4) rfl,
    decodeCommand_of_top (op := 0x7#4) rfl, decodeCommand_of_top (op := 0xA#4) rfl,
    decodeFrame_of_read rfl _, decodeFrame_of_write rfl _⟩

/-! ### The words of the encoder -/

/-- A command's encoding is a word of the command port. -/
theorem encode_of_isCommand {i : Instr} (h : Machine.isCommand i = true) (filler : Byte) :
    ∃ w, encode filler i = .command w := by
  cases i with
  | rFrame | wFrame => cases h
  | _ => exact ⟨_, rfl⟩

/-- A command of no operand is its OP above 28 zero bits. -/
theorem commandWord_zero (op : BitVec 4) :
    commandWord op 0 0 0 = op ++ 0x0000000#28 := by
  refine BitVec.eq_of_toNat_eq ?_
  change (op ++ 0#4 ++ 0#8 ++ 0#8 ++ 0#8).toNat = (op ++ 0x0000000#28).toNat
  simp only [BitVec.toNat_append]
  simp [← Nat.shiftLeft_add]

/-- A command of one operand has 16 zero bits below it. -/
theorem commandWord_fa (op : BitVec 4) (fa : Byte) :
    commandWord op fa 0 0 = op ++ 0#4 ++ fa ++ 0x0000#16 := by
  refine BitVec.eq_of_toNat_eq ?_
  change (op ++ 0#4 ++ fa ++ 0#8 ++ 0#8).toNat = (op ++ 0#4 ++ fa ++ 0x0000#16).toNat
  simp only [BitVec.toNat_append]
  simp [← Nat.shiftLeft_add]

end Sys2Proof

namespace Sys2Proof.Machine

/-! ### The assembler -/

section
variable {l : AsmLine}

/-- No operand of a command is above 255 (30_encoding.md R114). -/
theorem Mnemonic.operandMax_of_ne_rawWord {m : Mnemonic} (h : m ≠ .rawWord) :
    m.operandMax = 255 := by
  cases m with
  | rawWord => exact absurd rfl h
  | _ => rfl

theorem AsmLine.wellFormed_iff (h : l.mnemonic ≠ .rawWord) : l.wellFormed = true ↔
    l.operands.length = l.mnemonic.arity ∧ ∀ n ∈ l.operands, n ≤ 255 := by
  simp [AsmLine.wellFormed, Mnemonic.operandMax_of_ne_rawWord h]

/-- A line whose operands fit its mnemonic stands for a command. -/
theorem lineInstr_of_wellFormed (hm : l.mnemonic ≠ .rawWord) (h : l.wellFormed = true) :
    ∃ i, lineInstr l = some i ∧ isCommand i = true := by
  obtain ⟨hlen, _⟩ := (AsmLine.wellFormed_iff hm).1 h
  obtain ⟨m, operands⟩ := l
  cases m with
  | rawWord => exact absurd rfl hm
  | nop | attach | configure | powerUp | clearTable | cycle | readStatus =>
    obtain rfl := List.length_eq_zero_iff.1 hlen
    exact ⟨_, rfl, rfl⟩
  | readReg | busyTest | readHit =>
    obtain ⟨a, rfl⟩ := List.length_eq_one_iff.1 hlen
    exact ⟨_, rfl, rfl⟩
  | writeReg | sweep =>
    obtain ⟨a, b, rfl⟩ := List.length_eq_two.1 hlen
    exact ⟨_, rfl, rfl⟩

/-- The word of a command's line, and the command it decodes to, from the encoder (R114). -/
theorem assemblesTo_of_lineInstr {i : Instr} {w : Word} (hm : l.mnemonic ≠ .rawWord)
    (h : l.wellFormed = true) (hi : lineInstr l = some i) (hw : encode 0 i = .command w) :
    AssemblesTo l w i where
  word := by
    have hall : assemble l = (lineInstr l).bind fun i => (encode 0 i).commandWord? := by
      rw [assemble, if_pos h]
      exact fun n hl => hm (congrArg AsmLine.mnemonic hl)
    rw [hall, hi, Option.bind_some, hw, Encoded.commandWord?]
  command := by
    have hdec := decodeOfEncodeIsTheInstruction 0 i
    rwa [hw] at hdec

theorem assemble_of_large_operand (hm : l.mnemonic ≠ .rawWord) (h : ∃ n ∈ l.operands, 255 < n) :
    assemble l = none := by
  obtain ⟨n, hn, hlarge⟩ := h
  exact if_neg fun hw => Nat.not_le.2 hlarge (((AsmLine.wellFormed_iff hm).1 hw).2 n hn)

/-- `.word` takes every 32-bit word as it is (R114). -/
theorem assemble_rawWord (w : Word) : assemble ⟨.rawWord, [w.toNat]⟩ = some w := by
  have hfit : w.toNat ≤ 0xFFFFFFFF := Nat.le_of_lt_succ w.isLt
  have hwf : AsmLine.wellFormed ⟨.rawWord, [w.toNat]⟩ = true := by
    simp [AsmLine.wellFormed, Mnemonic.arity, Mnemonic.operandMax, hfit]
  rw [assemble, if_pos hwf]
  exact congrArg some ((BitVec.ofNat_toNat 32 w).trans (BitVec.setWidth_eq w))

end

/-- A line of no operand. -/
theorem assemblesTo_zero {m : Mnemonic} {i : Instr} (op : BitVec 4) (hm : m ≠ .rawWord)
    (har : m.arity = 0) (hi : lineInstr ⟨m, []⟩ = some i)
    (hw : encode 0 i = .command (commandWord op 0 0 0)) :
    AssemblesTo ⟨m, []⟩ (op ++ 0x0000000#28) i :=
  assemblesTo_of_lineInstr hm ((AsmLine.wellFormed_iff hm).2 ⟨har.symm, by simp⟩) hi
    (commandWord_zero op ▸ hw)

/-- A line of one operand. -/
theorem assemblesTo_one {m : Mnemonic} {i : Instr} {a : Nat} (op : BitVec 4) (hm : m ≠ .rawWord)
    (har : m.arity = 1) (ha : a ≤ 255) (hi : lineInstr ⟨m, [a]⟩ = some i)
    (hw : encode 0 i = .command (commandWord op (BitVec.ofNat 8 a) 0 0)) :
    AssemblesTo ⟨m, [a]⟩ (op ++ 0#4 ++ BitVec.ofNat 8 a ++ 0x0000#16) i :=
  assemblesTo_of_lineInstr hm ((AsmLine.wellFormed_iff hm).2 ⟨har.symm, by simpa using ha⟩) hi
    (commandWord_fa op _ ▸ hw)

/-- A line of two operands. -/
theorem assemblesTo_two {m : Mnemonic} {i : Instr} {w : Word} {a v : Nat} (hm : m ≠ .rawWord)
    (har : m.arity = 2) (ha : a ≤ 255) (hv : v ≤ 255) (hi : lineInstr ⟨m, [a, v]⟩ = some i)
    (hw : encode 0 i = .command w) : AssemblesTo ⟨m, [a, v]⟩ w i :=
  assemblesTo_of_lineInstr hm ((AsmLine.wellFormed_iff hm).2 ⟨har.symm, by simp [ha, hv]⟩) hi hw

/-- Settles O14: a line's word is the encoding of its command, and decoding undoes encoding. -/
theorem assembledLinesDecodeToTheirCommands :
    Obligations.AssembledLinesDecodeToTheirCommands := by
  refine ⟨fun a v ha hv => ?_, fun l hm h => ?_, fun l => assemble_of_large_operand,
    assemble_rawWord⟩
  · exact ⟨assemblesTo_zero 0x0#4 (by decide) rfl rfl rfl,
      assemblesTo_zero 0x1#4 (by decide) rfl rfl rfl,
      assemblesTo_zero 0x2#4 (by decide) rfl rfl rfl,
      assemblesTo_zero 0x3#4 (by decide) rfl rfl rfl,
      assemblesTo_one 0x4#4 (by decide) rfl ha rfl rfl,
      assemblesTo_two (by decide) rfl ha hv rfl rfl,
      assemblesTo_one 0x6#4 (by decide) rfl ha rfl rfl,
      assemblesTo_two (by decide) rfl ha hv rfl rfl,
      assemblesTo_zero 0x8#4 (by decide) rfl rfl rfl,
      assemblesTo_zero 0x9#4 (by decide) rfl rfl rfl,
      assemblesTo_one 0xA#4 (by decide) rfl ha rfl rfl,
      assemblesTo_zero 0xB#4 (by decide) rfl rfl rfl⟩
  · obtain ⟨i, hi, hc⟩ := lineInstr_of_wellFormed hm h
    obtain ⟨w, hw⟩ := encode_of_isCommand hc 0
    exact ⟨i, w, hi, assemblesTo_of_lineInstr hm h hi hw, hw⟩

/-! ### The pseudo-commands -/

/-- REPORT reads the counters of the numbers from the window's start to its clipped end (R115). -/
theorem reportReads_eq (cfg : Cfg) : reportReads cfg =
    (List.range' cfg.winStart (min (cfg.winStart + cfg.winCount) 126 - cfg.winStart)).map fun c =>
      .readHit (BitVec.ofNat 8 c) := by
  rw [← windowSize_eq, ← windowChannels_val, List.map_map]
  rfl

/-- Settles O15: REPORT's channels are those of the configured window, a range of numbers. -/
theorem pseudoCommandsExpandAsListed : Obligations.PseudoCommandsExpandAsListed :=
  fun cfg => ⟨rfl, rfl, congrArg (Instr.cycle :: ·) (reportReads_eq cfg)⟩

end Sys2Proof.Machine

/-! PROOF. What a step runs (60_exceptions.md R227, 00_scope.md R9), and what every step keeps
(10_state.md R44 to R46, R58; 30_encoding.md R105; 60_exceptions.md R232). -/

namespace Sys2Proof.Machine

/-! ### What a step runs -/

section
variable {s : State}

/-- Where no reset is applied the step is what the port does after the host's move. -/
theorem step_of_no_reset (hw : s.cfg.wellFormed = true) (hr : s.hostIn.head? ≠ some .reset) :
    step s = runPort s.hostMoved := by
  rw [step, if_pos hw, if_neg hr]

theorem runPort_of_busy (hb : s.busy = true) : runPort s = .next s := if_pos hb

theorem runPort_of_frame {tx0 tx1 : Byte} (hb : s.busy = false) (hf : s.frameIn = some (tx0, tx1)) :
    runPort s = runFrame tx0 tx1 s.takeFrame := by
  rw [runPort, hf, if_neg (by simp [hb])]

theorem runPort_of_command {w : Word} {ws : List Word} (hb : s.busy = false)
    (hf : s.frameIn = none) (hr : s.respWaiting = false) (hc : s.cmdIn = w :: ws) :
    runPort s = runCommand w s.accept := by
  rw [runPort, hf, hc, if_neg (by simp [hb]), if_neg (by simp [hr])]

theorem runPort_of_respWaiting (hf : s.frameIn = none) (hr : s.respWaiting = true) :
    runPort s = .next s := by
  rw [runPort, hf, if_pos hr, ite_self]

theorem runCommand_of_ok {w : Word} {i : Instr} (h : decodeCommand w = .ok i) (s : State) :
    runCommand w s = exec i s := by
  rw [runCommand, h]

theorem runFrame_of_ok {tx0 tx1 : Byte} {i : Instr} (h : decodeFrame tx0 tx1 = .ok i) (s : State) :
    runFrame tx0 tx1 s = exec i s := by
  rw [runFrame, h]

theorem runFrame_of_error {tx0 tx1 : Byte} {e : DecodeError} (h : decodeFrame tx0 tx1 = .error e)
    (s : State) : runFrame tx0 tx1 s = .next s := by
  rw [runFrame, h]

end

/-- Settles O7: the configuration's check is the only one that refuses. -/
theorem blockNeverStopsByItself : Obligations.BlockNeverStopsByItself :=
  fun _ => step_of_wellFormed

/-- Settles O3: the port is ready after the host's move, so the oldest word is accepted and runs. -/
theorem stepRunsTheDecodedCommand : Obligations.StepRunsTheDecodedCommand := by
  intro s w ws hw hr hb hf htaken hc
  have hready : s.hostMoved.respWaiting = false := by
    rcases htaken with h | h <;> simp [h]
  have haccept : s.hostMoved.accept =
      { s with cmdIn := ws, hostIn := s.hostIn.tail, respWaiting := false } := by
    rw [← hready, ← List.tail_cons (a := w) (as := ws), ← hc]
    rfl
  have hstep : step s = runCommand w s.hostMoved.accept :=
    (step_of_no_reset hw hr).trans (runPort_of_command (s := s.hostMoved) hb hf hready hc)
  rw [hstep, haccept]
  exact ⟨fun i hi => runCommand_of_ok hi _, fun e he => runCommand_of_error he _⟩

/-- Settles O4: a frame at the framer comes before a presented command. -/
theorem stepRunsTheDecodedFrame : Obligations.StepRunsTheDecodedFrame := by
  rintro s _ tx0 tx1 hw hr hb hf rfl
  rw [step_of_no_reset hw hr, runPort_of_frame (s := s.hostMoved) hb hf]
  exact ⟨fun i hi => runFrame_of_ok hi _, fun e he => runFrame_of_error he _⟩

/-- Settles O6: the host has not taken the response, so the port still waits after its move. -/
theorem presentedCommandWaitsForTheResponse : Obligations.PresentedCommandWaitsForTheResponse := by
  intro s hw hf hwait hr ht
  have hstill : s.hostMoved.respWaiting = s.respWaiting := by simp [hwait, ht]
  have hmoved : s.hostMoved = { s with hostIn := s.hostIn.tail } := by
    rw [State.hostMoved, ← State.hostMoved_respWaiting, hstill]
  rw [step_of_no_reset hw hr, runPort_of_respWaiting (s := s.hostMoved) hf (hstill.trans hwait),
    hmoved]

/-- Settles O51: the host moves, and a busy port does nothing. -/
theorem busyInstanceStaysBusy : Obligations.BusyInstanceStaysBusy := by
  intro s hw hb hr
  exact (step_of_no_reset hw hr).trans (runPort_of_busy (s := s.hostMoved) hb)

/-! ### What a step leaves of the state it starts from -/

/-- What the port's own moves leave: the architectural state but the busy bit, and the trace. -/
structure PortMoved (s u : State) : Prop where
  cfg        : u.cfg = s.cfg
  fsm        : u.fsm = s.fsm
  devref     : u.devref = s.devref
  attachFail : u.attachFail = s.attachFail
  rdFail     : u.rdFail = s.rdFail
  wrFail     : u.wrFail = s.wrFail
  ce         : u.ce = s.ce
  hit        : u.hit = s.hit
  resp       : u.resp = s.resp
  events     : u.events = s.events
  responses  : u.responses = s.responses

/-- A step is the reset, or the port moves and then at most one instruction runs: an ILLEGAL word's
answer is among the things a command can do. -/
theorem step_cases {s t : State} (h : step s = .next t) :
    (s.hostIn.head? = some .reset ∧ t = s.hostMoved.applyReset) ∨
    (s.hostIn.head? ≠ some .reset ∧ ∃ u, PortMoved s u ∧ (t = u ∨ ∃ i, ExecShape i u t)) := by
  have hmoved : PortMoved s s.hostMoved := ⟨rfl, rfl, rfl, rfl, rfl, rfl, rfl, rfl, rfl, rfl, rfl⟩
  have haccept : PortMoved s s.hostMoved.accept :=
    ⟨rfl, rfl, rfl, rfl, rfl, rfl, rfl, rfl, rfl, rfl, rfl⟩
  have htake : PortMoved s s.hostMoved.takeFrame :=
    ⟨rfl, rfl, rfl, rfl, rfl, rfl, rfl, rfl, rfl, rfl, rfl⟩
  cases (step_shape h).2 with
  | reset hr ht => exact .inl ⟨hr, ht⟩
  | waits hr ht => exact .inr ⟨hr, _, hmoved, .inl ht⟩
  | drops hr hb ht => exact .inr ⟨hr, _, htake, .inl ht⟩
  | illegal hr hb ht =>
    exact .inr ⟨hr, _, haccept, .inr ⟨.nop, .answer rfl .errIllegal 0 ht⟩⟩
  | frame hr hb i hi hx => exact .inr ⟨hr, _, htake, .inr ⟨i, exec_shape_of_next hx⟩⟩
  | command hr hb i hi hx => exact .inr ⟨hr, _, haccept, .inr ⟨i, exec_shape_of_next hx⟩⟩

/-! ### The bring-up invariant (10_state.md R58) -/

section
variable {s t : State}

/-- The invariant speaks of six fields. -/
theorem BringupInv.of_eq (h : BringupInv s) (hfsm : t.fsm = s.fsm) (hdev : t.devref = s.devref)
    (hce : t.ce = s.ce) (ha : t.attachFail = s.attachFail) (hr : t.rdFail = s.rdFail)
    (hw : t.wrFail = s.wrFail) : BringupInv t where
  devref_none := by rw [hdev, hfsm]; exact h.devref_none
  ce_high := by rw [hce, hfsm]; exact h.ce_high
  ce_undriven := by rw [hce, hfsm, ha, hr, hw]; exact h.ce_undriven

/-- Once the enable line is driven the flags are free. -/
theorem BringupInv.of_driven (hdev : t.devref = none ↔ t.fsm = .unattached)
    (hhigh : t.ce = .high ↔ t.fsm = .listening) (hce : t.ce ≠ .undriven) : BringupInv t where
  devref_none := hdev
  ce_high := hhigh
  ce_undriven h := absurd h hce

/-- With a device, the enable line is driven: ATTACH came before. -/
theorem BringupInv.driven {ref : DevRef} (h : BringupInv s) (hd : s.devref = some ref) :
    s.ce ≠ .undriven := fun hce => by
  have hnone := h.devref_none.2 (h.ce_undriven hce).1
  rw [hd] at hnone
  cases hnone

/-- POWER_UP's settling is the one that drives the enable line (41_device_fsm.md R155). -/
theorem settle_ce (i : Instr) (u : State) :
    (settle i u).ce = if i = .powerUp then .high else u.ce := by
  cases i with
  | powerUp => rfl
  | configure => rw [settle, raiseToConfigured_eq]; rfl
  | _ => rfl

/-- Settling keeps the enable line high exactly when LISTENING: POWER_UP moves both, and CONFIGURE
moves between two states that do not listen. -/
theorem settle_ce_high {i : Instr} {u : State} (h : u.ce = .high ↔ u.fsm = .listening) :
    (settle i u).ce = .high ↔ (settle i u).fsm = .listening := by
  rw [settle_ce]
  rcases settle_fsm_cases i u with hf | ⟨rfl, hu, hf⟩ | ⟨rfl, hf⟩
  · by_cases hi : i = .powerUp
    · subst hi
      exact ⟨fun _ => rfl, fun _ => rfl⟩
    · rw [if_neg hi, hf, h]
  · rw [if_neg (by decide), hf, h, hu]
    decide
  · simp [hf]

theorem settle_ce_ne_undriven {i : Instr} {u : State} (h : u.ce ≠ .undriven) :
    (settle i u).ce ≠ .undriven := by
  rw [settle_ce]
  split
  · decide
  · exact h

/-- Every instruction, answered or left unanswered, keeps the invariant. -/
theorem ExecShape.bringupInv {i : Instr} (hx : ExecShape i s t) (h : BringupInv s) :
    BringupInv t := by
  have hdev := hx.devref_none_iff h.devref_none
  cases hx with
  | answer hi k d ht => subst ht; exact h.of_eq rfl rfl rfl rfl rfl rfl
  | clear hi ht => subst ht; exact h.of_eq rfl rfl rfl rfl rfl rfl
  | noDevice hi hd ht => subst ht; exact h.of_eq rfl rfl rfl rfl rfl rfl
  | attachHung hi hf ht => exact .of_driven hdev (by simp [ht, hf]) (by simp [ht])
  | attachDone hi hf u hu ht =>
    subst hu
    obtain ⟨ref, _, rfl⟩ | ⟨_, rfl⟩ := ht
    · exact .of_driven hdev (by simp) (by simp)
    · exact .of_driven hdev (by simp [hf]) (by simp)
  | busHung ref hd hi ha es step =>
    exact .of_driven hdev (by simpa [step.ce, step.fsm] using h.ce_high)
      (by simpa [step.ce] using h.driven hd)
  | busDone ref hd hi hc ha u es step hes hpu hhit k d ht =>
    have hu : u.ce = .high ↔ u.fsm = .listening := by simpa [step.ce, step.fsm] using h.ce_high
    have hdriven : u.ce ≠ .undriven := by simpa [step.ce] using h.driven hd
    subst ht
    exact .of_driven hdev (settle_ce_high hu) (settle_ce_ne_undriven hdriven)
  | frameDone hi ref hd u es step hes hhit busy o ht =>
    exact .of_driven hdev (by simpa [ht, step.ce, step.fsm] using h.ce_high)
      (by simpa [ht, step.ce] using h.driven hd)

end

/-- Settles O42: the reset sets all six fields, the port's moves write none of them, and every
instruction keeps the invariant. -/
theorem everyStepKeepsTheBringupInvariant : Obligations.EveryStepKeepsTheBringupInvariant := by
  intro s t h hst
  rcases step_cases hst with ⟨_, rfl⟩ | ⟨_, u, hp, hrun⟩
  · exact ⟨by simp, by simp, by simp⟩
  · have hu : BringupInv u := h.of_eq hp.fsm hp.devref hp.ce hp.attachFail hp.rdFail hp.wrFail
    rcases hrun with rfl | ⟨i, hx⟩
    · exact hu
    · exact hx.bringupInv hu

/-! ### The response word (30_encoding.md R105, R106) -/

/-- Bits [23:16] of a response word are 0. -/
theorem responseWord_reserved (k : Code) (d : Half) :
    (responseWord k d).extractLsb' 16 8 = 0#8 := by
  refine BitVec.eq_of_getLsbD_eq fun i hi => ?_
  rw [BitVec.getLsbD_extractLsb']
  change (decide (i < 8) && BitVec.getLsbD (w := 8 + 8 + 16) (k.toByte ++ 0#8 ++ d) (16 + i)) = _
  simp only [BitVec.getLsbD_append, BitVec.getLsbD_zero]
  interval_cases i <;> simp

theorem Code.toByte_le (k : Code) : k.toByte.toNat ≤ 5 := by
  cases k <;> decide

theorem responseShape_of_responseWord {t : State} {k : Code} {d : Half}
    (h : t.resp = responseWord k d) : ResponseShape t := by
  have hcode : (responseWord k d).extractLsb' 24 8 = k.toByte := respCode_respond t k d
  rw [ResponseShape, h, hcode]
  exact ⟨responseWord_reserved k d, k.toByte_le⟩

theorem ResponseShape.of_eq {s t : State} (h : ResponseShape s) (hr : t.resp = s.resp) :
    ResponseShape t := by
  rw [ResponseShape, hr]
  exact h

section
variable {i : Instr} {s t : State}

/-- An instruction leaves the response word or writes a whole new one. -/
theorem ExecShape.resp (h : ExecShape i s t) :
    t.resp = s.resp ∨ ∃ k d, t.resp = responseWord k d := by
  cases h with
  | answer hi k d ht => exact .inr ⟨k, d, by simp [ht]⟩
  | clear hi ht => exact .inr ⟨.ok, 0, by simp [ht]⟩
  | noDevice hi hd ht => exact .inl (by simp [ht])
  | attachHung hi hf ht => exact .inl (by simp [ht])
  | attachDone hi hf u hu ht =>
    obtain ⟨ref, _, rfl⟩ | ⟨_, rfl⟩ := ht
    · exact .inr ⟨.ok, 0, rfl⟩
    · exact .inr ⟨.attachFail, 0, rfl⟩
  | busHung ref hd hi ha es step => exact .inl (by simp [step.resp])
  | busDone ref hd hi hc ha u es step hes hpu hhit k d ht => exact .inr ⟨k, d, by simp [ht]⟩
  | frameDone hi ref hd u es step hes hhit busy o ht => exact .inl (by simp [ht, step.resp])

end

/-- Settles O44: every response is a response word, and the reset's 0 has that shape. -/
theorem everyStepKeepsTheResponseShape : Obligations.EveryStepKeepsTheResponseShape := by
  intro s t h hst
  rcases step_cases hst with ⟨_, rfl⟩ | ⟨_, u, hp, rfl | ⟨i, hx⟩⟩
  · exact responseShape_of_responseWord (k := .ok) (d := 0) rfl
  · exact h.of_eq hp.resp
  · rcases hx.resp with hr | ⟨k, d, hr⟩
    · exact h.of_eq (hr.trans hp.resp)
    · exact responseShape_of_responseWord hr

/-- Settles O41: reset drives no line, has no device, and its trace and response word are 0. -/
theorem resetMeetsTheInvariants : Obligations.ResetMeetsTheInvariants := fun cfg =>
  ⟨⟨by simp [State.init], by simp [State.init], by simp [State.init]⟩,
    fun _ he => absurd he List.not_mem_nil,
    responseShape_of_responseWord (k := .ok) (d := 0) rfl⟩

/-! ### The bring-up state and the failure flags (10_state.md R44, R46) -/

section
variable {i : Instr} {s t : State}

/-- Who moves the bring-up state (10_state.md R44). -/
theorem ExecShape.fsm_cases (h : ExecShape i s t) :
    t.fsm = s.fsm ∨
    (i = .attach ∧ s.fsm = .unattached ∧ t.fsm = .attached ∧ ∃ ref, s.attachAnswer = .ok ref) ∨
    (i = .configure ∧ s.fsm = .attached ∧ t.fsm = .configured) ∨
    (i = .powerUp ∧ s.fsm = .configured ∧ t.fsm = .listening) := by
  cases h with
  | answer hi k d ht => exact .inl (by simp [ht])
  | clear hi ht => exact .inl (by simp [ht])
  | noDevice hi hd ht => exact .inl (by simp [ht])
  | attachHung hi hf ht => exact .inl (by simp [ht])
  | attachDone hi hf u hu ht =>
    subst hu
    obtain ⟨ref, ha, rfl⟩ | ⟨_, rfl⟩ := ht
    · exact .inr (.inl ⟨hi, hf, rfl, ref, ha⟩)
    · exact .inl (by simp)
  | busHung ref hd hi ha es step => exact .inl (by simp [step.fsm])
  | busDone ref hd hi hc ha u es step hes hpu hhit k d ht =>
    subst ht
    have hu : u.fsm = s.fsm := step.fsm.trans (scanStart_fsm i s)
    rcases settle_fsm_cases i u with hf | ⟨rfl, hua, hf⟩ | ⟨rfl, hf⟩
    · exact .inl (hf.trans hu)
    · exact .inr (.inr (.inl ⟨rfl, hu.symm.trans hua, hf⟩))
    · have hs : s.fsm = .configured ∨ s.fsm = .listening := by simpa [allowedIn] using ha
      rcases hs with hs | hs
      · exact .inr (.inr (.inr ⟨rfl, hs, hf⟩))
      · exact .inl (hf.trans hs.symm)
  | frameDone hi ref hd u es step hes hhit busy o ht => exact .inl (by simp [ht, step.fsm])

theorem ExecShape.rank_le (h : ExecShape i s t) : s.fsm.rank ≤ t.fsm.rank := by
  rcases h.fsm_cases with hf | ⟨_, hs, ht, _⟩ | ⟨_, hs, ht⟩ | ⟨_, hs, ht⟩
  · rw [hf]
  all_goals
    rw [hs, ht]
    decide

/-- No instruction clears a failure flag (10_state.md R46). -/
theorem ExecShape.flags (h : ExecShape i s t) :
    (s.attachFail = true → t.attachFail = true) ∧ FlagsKept s t := by
  cases h with
  | answer hi k d ht => subst ht; exact ⟨id, id, id⟩
  | clear hi ht => subst ht; exact ⟨id, id, id⟩
  | noDevice hi hd ht => subst ht; exact ⟨id, id, id⟩
  | attachHung hi hf ht => subst ht; exact ⟨id, id, id⟩
  | attachDone hi hf u hu ht =>
    subst hu
    obtain ⟨ref, _, rfl⟩ | ⟨_, rfl⟩ := ht
    · exact ⟨by simp, by simp, by simp⟩
    · exact ⟨by simp, by simp, by simp⟩
  | busHung ref hd hi ha es step =>
    exact ⟨by simp [step.attachFail], by simpa using step.rdFail, by simpa using step.wrFail⟩
  | busDone ref hd hi hc ha u es step hes hpu hhit k d ht =>
    subst ht
    exact ⟨by simp [step.attachFail], by simpa using step.rdFail, by simpa using step.wrFail⟩
  | frameDone hi ref hd u es step hes hhit busy o ht =>
    subst ht
    exact ⟨by simp [step.attachFail], step.rdFail, step.wrFail⟩

end

/-- Settles O45: each instruction moves the bring-up state by its own transition, if at all. -/
theorem bringupStateNeverDecreases : Obligations.BringupStateNeverDecreases := by
  refine ⟨fun s t hst hr => ?_, fun i s t h => (exec_shape_of_next h).fsm_cases⟩
  rcases step_cases hst with ⟨hreset, _⟩ | ⟨_, u, hp, rfl | ⟨i, hx⟩⟩
  · exact absurd hreset hr
  · rw [hp.fsm]
  · exact hp.fsm ▸ hx.rank_le

/-- Settles O47: the port's moves write no flag and no instruction clears one. -/
theorem failureFlagsStaySetUntilReset : Obligations.FailureFlagsStaySetUntilReset := by
  intro s t hst hr
  rcases step_cases hst with ⟨hreset, _⟩ | ⟨_, u, hp, rfl | ⟨i, hx⟩⟩
  · exact absurd hreset hr
  · rw [hp.attachFail, hp.rdFail, hp.wrFail]
    exact ⟨id, id, id⟩
  · obtain ⟨ha, hk⟩ := hx.flags
    rw [← hp.attachFail, ← hp.rdFail, ← hp.wrFail]
    exact ⟨ha, hk.rdFail, hk.wrFail⟩

/-! ### The configuration and the trace -/

section
variable {i : Instr} {s t : State}

theorem ExecShape.cfg (h : ExecShape i s t) : t.cfg = s.cfg := by
  cases h with
  | answer hi k d ht => simp [ht]
  | clear hi ht => simp [ht]
  | noDevice hi hd ht => simp [ht]
  | attachHung hi hf ht => simp [ht]
  | attachDone hi hf u hu ht =>
    subst hu
    obtain ⟨ref, _, rfl⟩ | ⟨_, rfl⟩ := ht <;> simp
  | busHung ref hd hi ha es step => simp [step.cfg]
  | busDone ref hd hi hc ha u es step hes hpu hhit k d ht => simp [ht, step.cfg]
  | frameDone hi ref hd u es step hes hhit busy o ht => simp [ht, step.cfg]

/-- An instruction gives no response, or one. -/
theorem ExecShape.responses (h : ExecShape i s t) :
    ∃ ws, t.responses = s.responses ++ ws := by
  cases h with
  | answer hi k d ht => exact ⟨_, by rw [ht, State.respond_responses]⟩
  | clear hi ht => exact ⟨_, by rw [ht, State.respond_responses, State.clearHits_responses]⟩
  | noDevice hi hd ht => exact ⟨[], by simp [ht]⟩
  | attachHung hi hf ht => exact ⟨[], by simp [ht]⟩
  | attachDone hi hf u hu ht =>
    subst hu
    obtain ⟨ref, _, rfl⟩ | ⟨_, rfl⟩ := ht
    · exact ⟨[responseWord .ok 0], by simp⟩
    · exact ⟨[responseWord .attachFail 0], by simp⟩
  | busHung ref hd hi ha es step => exact ⟨[], by simp [step.responses]⟩
  | busDone ref hd hi hc ha u es step hes hpu hhit k d ht =>
    exact ⟨[responseWord k d], by simp [ht, step.responses]⟩
  | frameDone hi ref hd u es step hes hhit busy o ht => exact ⟨[], by simp [ht, step.responses]⟩

/-- The counters an instruction's bus calls start from: the old ones, or all cleared (R188). -/
theorem scanStart_hit_cases (i : Instr) (s : State) (c : Channel) :
    (scanStart i s).hit[c] = s.hit[c] ∨ (scanStart i s).hit[c] = 0 := by
  unfold scanStart
  split
  · exact .inr (s.readHit_clearHits c)
  · exact .inl rfl

/-- A list of events accounts for the counters: one with a new value other than 0 is that of a
channel some event wrote to RF_CH (42_band_scanner.md R186). -/
def CountersTested (es : List Event) (s t : State) : Prop :=
  ∀ c : Channel, t.hit[c] = s.hit[c] ∨ t.hit[c] = 0 ∨
    ∃ ref, Event.xfer ref (writeByte s.cfg.addrRfCh) (channelByte c) ∈ es

theorem CountersTested.of_hit_eq {es : List Event} (h : t.hit = s.hit) : CountersTested es s t :=
  fun c => .inl (by rw [h])

theorem CountersTested.congr {es : List Event} {u : State} (h : CountersTested es s u)
    (hhit : t.hit = u.hit) : CountersTested es s t := fun c => by
  rw [hhit]
  exact h c

theorem CountersTested.mono {es fs : List Event} (h : CountersTested es s t) (hsub : es ⊆ fs) :
    CountersTested fs s t := fun c =>
  (h c).imp_right fun h => h.imp_right fun ⟨ref, hmem⟩ => ⟨ref, hsub hmem⟩

theorem BusStep.countersTested {ref : DevRef} {es : List Event}
    (step : BusStep ref es (scanStart i s) t) : CountersTested es s t := fun c => by
  rcases step.hit c with hsame | htested
  · exact (scanStart_hit_cases i s c).imp hsame.trans fun h => .inl (hsame.trans h)
  · exact .inr (.inr ⟨ref, scanStart_cfg i s ▸ htested⟩)

/-- The events an instruction adds: boundedly many where the configuration bounds CYCLE's sweeps
(60_exceptions.md R232), and the counters it writes are those of channels they tested. -/
theorem ExecShape.newEvents (h : ExecShape i s t) :
    ∃ es, t.events = s.events ++ es ∧
      (es.length ≤ 3 * (65535 * 126) ∨ s.cfg.wellFormed = false) ∧ CountersTested es s t := by
  cases h with
  | answer hi k d ht => exact ⟨[], by simp [ht], .inl (by simp), .of_hit_eq (by simp [ht])⟩
  | clear hi ht =>
    exact ⟨[], by simp [ht], .inl (by simp), fun c => .inr (.inl (by simp [ht]))⟩
  | noDevice hi hd ht => exact ⟨[], by simp [ht], .inl (by simp), .of_hit_eq (by simp [ht])⟩
  | attachHung hi hf ht =>
    exact ⟨_, by rw [ht, State.stuck_events, attachSent_events], .inl (by simp),
      .of_hit_eq (by simp [ht])⟩
  | attachDone hi hf u hu ht =>
    have hev : t.events = (attachSent s).events := by
      obtain ⟨_, _, rfl⟩ | ⟨_, rfl⟩ := ht <;> simp [hu]
    have hhit : t.hit = s.hit := by obtain ⟨_, _, rfl⟩ | ⟨_, rfl⟩ := ht <;> simp [hu]
    exact ⟨_, by rw [hev, attachSent_events], .inl (by simp), .of_hit_eq hhit⟩
  | busHung ref hd hi ha es step hes =>
    exact ⟨es, by simp [step.events], hes, step.countersTested⟩
  | busDone ref hd hi hc ha u es step hes hpu hhit k d ht =>
    refine ⟨es ++ if i = .powerUp then [.gpioLevel u.cfg.enLine .high] else [], ?_, ?_, ?_⟩
    · simp [ht, settle_events, step.events]
    · split
      next hi =>
        have hle := hpu hi
        exact .inl (by rw [List.length_append, List.length_singleton]; omega)
      · simpa using hes
    · have hu : CountersTested es s u := step.countersTested
      exact (hu.mono (List.subset_append_left es _)).congr (by simp [ht])
  | frameDone hi ref hd u es step hes hhit busy o ht =>
    exact ⟨es, by simp [ht, step.events], .inl (by omega), .of_hit_eq (by simp [ht, hhit])⟩

end

/-- Settles O48: no move of the port and no instruction writes the configuration, and all they do to
the trace is to add to it. -/
theorem configurationIsNeverWritten : Obligations.ConfigurationIsNeverWritten := by
  intro s t hst
  rcases step_cases hst with ⟨_, rfl⟩ | ⟨_, u, hp, rfl | ⟨i, hx⟩⟩
  · exact ⟨rfl, ⟨[], by simp⟩, [], by simp⟩
  · exact ⟨hp.cfg, ⟨[], by simp [hp.events]⟩, [], by simp [hp.responses]⟩
  · obtain ⟨es, hev, _⟩ := hx.newEvents
    exact ⟨hx.cfg.trans hp.cfg, ⟨es, hp.events ▸ hev⟩, hp.responses ▸ hx.responses⟩

/-- The events a step adds, as those of the instruction it runs. -/
theorem step_newEvents {s t : State} (h : step s = .next t) :
    ∃ es, t.events = s.events ++ es ∧ es.length ≤ 3 * (65535 * 126) ∧ CountersTested es s t := by
  have hwf := (step_shape h).1
  rcases step_cases h with ⟨_, rfl⟩ | ⟨_, u, hp, rfl | ⟨i, hx⟩⟩
  · exact ⟨[], by simp, by simp, fun c => .inr (.inl (by simp))⟩
  · exact ⟨[], by simp [hp.events], by simp, .of_hit_eq hp.hit⟩
  · obtain ⟨es, hev, hlen, htested⟩ := hx.newEvents
    refine ⟨es, hp.events ▸ hev, hlen.resolve_right ?_, fun c => ?_⟩
    · simp [hp.cfg, hwf]
    · simpa [hp.hit, hp.cfg] using htested c

/-- Settles O38: a counter's new value is 0, or comes with the busy test that wrote its channel. -/
theorem countersGrowOnlyWhereTheirChannelWasTested :
    Obligations.CountersGrowOnlyWhereTheirChannelWasTested := fun _ _ h => by
  obtain ⟨es, hev, _, htested⟩ := step_newEvents h
  exact ⟨es, hev, htested⟩

/-- Settles O40: CYCLE issues the most events, and R41 bounds its sweeps. -/
theorem everyStepIssuesBoundedlyManyEvents :
    Obligations.EveryStepIssuesBoundedlyManyEvents := fun _ _ h => by
  obtain ⟨es, hev, hlen, _⟩ := step_newEvents h
  exact ⟨es, hev, hlen⟩

end Sys2Proof.Machine

/-! PROOF. What commands do where every call is answered: the bus frames (40_register_link.md R130,
R131), the bring-up (30_encoding.md R115, 41_device_fsm.md R156), and the waits and frames of the
commands (70_reset_and_hazards.md R252). -/

namespace Sys2Proof.Machine

/-! ### The bus frames -/

section
variable {s : State} {ref : DevRef}

theorem frameToDevice_run {body : DevRef → State → Ran Unit} (hd : s.devref = some ref) :
    frameToDevice body s = (body ref s).state := by
  rw [frameToDevice, hd]

theorem frameToDevice_noDevice {body : DevRef → State → Ran Unit} (hd : s.devref = none) :
    frameToDevice body s = s.setFrameOut .noDevice := by
  rw [frameToDevice, hd]

theorem exec_rFrame_of_fair (a : RegAddr) (hd : s.devref = some ref) (h : s.Fair) :
    exec (.rFrame a) s = .next
      ((wasRead ref a s).setFrameOut (.ofRead (readResult (s.nthXfer 0)))) := by
  rw [exec, execRFrame, frameToDevice_run hd, regRead_of_fair h, Ran.bind_done, Ran.state_done]

theorem exec_wFrame_of_fair (a : RegAddr) (v : Byte) (hd : s.devref = some ref) (h : s.Fair) :
    exec (.wFrame a v) s = .next ((wrote ref a v s).setFrameOut .nothing) := by
  rw [exec, execWFrame, frameToDevice_run hd, regWrite_of_fair h, Ran.bind_done, Ran.state_done]

end

/-- Settles O28: the transfer's answer fixes what the framer hands back, and the flag. -/
theorem readFrameIsOneTransfer : Obligations.ReadFrameIsOneTransfer := by
  refine fun a s => ⟨fun hd => ?_, fun ref hd h => ?_⟩
  · rw [exec, execRFrame, frameToDevice_noDevice hd]
    rfl
  · rw [exec_rFrame_of_fair a hd h, State.xferAnswer_eq]
    refine ⟨fun rx0 rx1 ha => ?_, fun ha => ?_⟩
    · rw [ha, wasRead_of_ok ha]
      rfl
    · rw [ha, wasRead_of_err ha]
      rfl

/-- Settles O29: the transfer's answer reaches the write flag only. -/
theorem writeFrameIsOneTransfer : Obligations.WriteFrameIsOneTransfer := by
  refine fun a v s => ⟨fun hd => ?_, fun ref hd h => ?_⟩
  · rw [exec, execWFrame, frameToDevice_noDevice hd]
    rfl
  · rw [exec_wFrame_of_fair a v hd h, State.xferAnswer_eq]
    rfl

/-! ### A host that stops at the first response that is not OK -/

section
variable {i : Instr} {s u : State} {d : Half}

theorem hostRun_cons_of_ok (h : exec i s = .next (u.respond .ok d)) (is : List Instr) :
    hostRun (i :: is) s = hostRun is (u.respond .ok d) := by
  rw [hostRun, h]
  simp only [respCode_respond]
  rfl

theorem hostRun_cons_of_attachFail (h : exec i s = .next (u.respond .attachFail d))
    (is : List Instr) : hostRun (i :: is) s = u.respond .attachFail d := by
  rw [hostRun, h]
  simp only [respCode_respond]
  rfl

end

/-- The five events of `CONFIGURE; POWER_UP` (41_device_fsm.md R154, R155). -/
def configurePowerUpEvents (cfg : Cfg) (ref : DevRef) : List Event :=
  [.xfer ref (writeByte cfg.addrEnAa) cfg.valEnAa,
    .xfer ref (writeByte cfg.addrRfSetup) cfg.valRfSetup,
    .xfer ref (writeByte cfg.addrConfig) cfg.valConfig, .delay Config.puSettleUs,
    .gpioLevel cfg.enLine .high]

/-- What `CONFIGURE; POWER_UP` makes of a state with a device, every call answered. -/
structure PoweredUp (ref : DevRef) (s t : State) : Prop where
  cfg        : t.cfg = s.cfg
  fsm        : t.fsm = .listening
  ce         : t.ce = .high
  devref     : t.devref = s.devref
  attachFail : t.attachFail = s.attachFail
  rdFail     : t.rdFail = s.rdFail
  wrFail     : t.wrFail = (s.wrFail || (s.nthXfer 0).isErr || (s.nthXfer 1).isErr ||
    (s.nthXfer 2).isErr)
  hit        : t.hit = s.hit
  responses  : t.responses = s.responses ++ [0x00000000#32, 0x00000000#32]
  events     : t.events = s.events ++ configurePowerUpEvents s.cfg ref
  hangAfter  : t.hangAfter = s.hangAfter
  answers    : ∀ n, t.nthXfer n = s.nthXfer (n + 3)

/-- The state after CONFIGURE, every call answered. -/
def configureDone (ref : DevRef) (s : State) : State :=
  (raiseToConfigured (wrote ref s.cfg.addrRfSetup s.cfg.valRfSetup
    (wrote ref s.cfg.addrEnAa s.cfg.valEnAa s))).respond .ok 0

/-- The state after POWER_UP, every call answered. -/
def powerUpDone (ref : DevRef) (s : State) : State :=
  ((driveHigh ((wrote ref s.cfg.addrConfig s.cfg.valConfig s).emit
    (.delay Config.puSettleUs))).setFsm .listening).respond .ok 0

theorem configureDone_eq (ref : DevRef) (s : State) : configureDone ref s =
    State.givesResponse { s.popXfer.popXfer with
      fsm := if s.fsm = .attached then .configured else s.fsm
      wrFail := s.wrFail || (s.nthXfer 0).isErr || (s.nthXfer 1).isErr
      events := s.events ++ [.xfer ref (writeByte s.cfg.addrEnAa) s.cfg.valEnAa,
        .xfer ref (writeByte s.cfg.addrRfSetup) s.cfg.valRfSetup] } 0x00000000#32 := by
  rw [configureDone, wrote_wrote, raiseToConfigured_eq]
  rfl

theorem powerUpDone_eq (ref : DevRef) (s : State) : powerUpDone ref s =
    State.givesResponse { s.popXfer with
      fsm := .listening
      ce := .high
      wrFail := s.wrFail || (s.nthXfer 0).isErr
      events := s.events ++ [.xfer ref (writeByte s.cfg.addrConfig) s.cfg.valConfig,
        .delay Config.puSettleUs, .gpioLevel s.cfg.enLine .high] } 0x00000000#32 := by
  rw [powerUpDone, driveHigh_emit_wrote]
  rfl

theorem nthXfer_configureDone (ref : DevRef) (s : State) (n : Nat) :
    (configureDone ref s).nthXfer n = s.nthXfer (n + 2) := by
  rw [configureDone_eq]
  exact (State.nthXfer_congr (s := s.popXfer.popXfer) rfl rfl rfl n).trans (by simp)

theorem nthXfer_powerUpDone (ref : DevRef) (s : State) (n : Nat) :
    (powerUpDone ref s).nthXfer n = s.nthXfer (n + 1) := by
  rw [powerUpDone_eq]
  exact (State.nthXfer_congr (s := s.popXfer) rfl rfl rfl n).trans (by simp)

theorem poweredUp_done (ref : DevRef) (s : State) :
    PoweredUp ref s (powerUpDone ref (configureDone ref s)) where
  cfg := by simp [powerUpDone_eq, configureDone_eq, State.givesResponse]
  fsm := rfl
  ce := rfl
  devref := by simp [powerUpDone_eq, configureDone_eq, State.givesResponse]
  attachFail := by simp [powerUpDone_eq, configureDone_eq, State.givesResponse]
  rdFail := by simp [powerUpDone_eq, configureDone_eq, State.givesResponse]
  wrFail := by
    rw [powerUpDone_eq, nthXfer_configureDone, configureDone_eq]
    rfl
  hit := by simp [powerUpDone_eq, configureDone_eq, State.givesResponse]
  responses := by simp [powerUpDone_eq, configureDone_eq, State.givesResponse]
  events := by
    simp [powerUpDone_eq, configureDone_eq, State.givesResponse, configurePowerUpEvents]
  hangAfter := by simp [powerUpDone_eq, configureDone_eq, State.givesResponse]
  answers n := by rw [nthXfer_powerUpDone, nthXfer_configureDone]

/-- CONFIGURE leaves every bring-up state but UNATTACHED as CONFIGURED or LISTENING, where POWER_UP
runs. -/
theorem hostRun_configure_powerUp {s : State} {ref : DevRef} (hf : s.fsm ≠ .unattached)
    (hd : s.devref = some ref) (h : s.Fair) (is : List Instr) :
    hostRun (.configure :: .powerUp :: is) s =
      hostRun is (powerUpDone ref (configureDone ref s)) := by
  have hfsm : (configureDone ref s).fsm = .configured ∨ (configureDone ref s).fsm = .listening := by
    rw [configureDone_eq]
    change (if s.fsm = .attached then Fsm.configured else s.fsm) = _ ∨ _ = _
    cases hs : s.fsm with
    | unattached => exact absurd hs hf
    | attached | configured => exact .inl rfl
    | listening => exact .inr rfl
  have hdev : (configureDone ref s).devref = some ref := by
    rw [configureDone_eq]
    exact hd
  have hfair : (configureDone ref s).Fair := by
    rw [configureDone_eq]
    exact h
  have hconf := exec_configure_of_fair hf hd h
  have hpower := exec_powerUp_of_fair hfsm hdev hfair
  rw [hostRun_cons_of_ok hconf, ← configureDone, hostRun_cons_of_ok hpower, powerUpDone]

/-! ### BRINGUP -/

theorem responseWord_ok_zero : responseWord .ok 0x0000#16 = 0x00000000#32 := rfl

theorem responseWord_attachFail_zero : responseWord .attachFail 0x0000#16 = 0x04000000#32 := rfl

/-- Settles O22: an answer Ok leaves the device and ATTACHED, from where `CONFIGURE; POWER_UP` runs
through; Err is the first response that is not OK. -/
theorem bringupReachesListeningOrStopsAtAttach :
    Obligations.BringupReachesListeningOrStopsAtAttach := by
  refine fun s hf h => ⟨fun ref ha => ?_, fun ha => ?_⟩
  · have hattach : exec .attach s =
        .next ((((attachSent s).popAttach.setDevref ref).setFsm .attached).respond .ok 0) := by
      rw [exec_attach_of_fair hf h, ha]
      rfl
    set u := (((attachSent s).popAttach.setDevref ref).setFsm .attached).respond .ok 0
    have hu : u.Fair := (attachSent_hangAfter s).trans h
    have hattached : u.fsm ≠ .unattached := by simp [u]
    have hrun : hostRun (Pseudo.expand s.cfg .bringup) s =
        powerUpDone ref (configureDone ref u) := by
      rw [Pseudo.expand, hostRun_cons_of_ok hattach,
        hostRun_configure_powerUp (s := u) hattached rfl hu]
      rfl
    have hp := poweredUp_done ref u
    have hresp : u.responses = s.responses ++ [0x00000000#32] := by
      simp [u, responseWord_ok_zero]
    refine ⟨_, hrun, hp.fsm, hp.ce, hp.devref, hp.hit.trans (attachSent_hit s), ?_⟩
    rw [hp.responses, hresp, List.append_assoc, List.singleton_append]
  · have hattach : exec .attach s =
        .next ((attachSent s).popAttach.flagAttachFail.respond .attachFail 0) := by
      rw [exec_attach_of_fair hf h, ha]
      rfl
    exact ⟨_, hostRun_cons_of_attachFail hattach _, by simp [hf], by simp, by simp, by simp,
      by simp [responseWord_attachFail_zero]⟩

/-! ### CONFIGURE and POWER_UP twice -/

/-- What an event leaves in a register: a byte of its own, or what was there. -/
theorem RegFile.after_getElem (e : Event) (i : Fin 32) :
    ∃ o : Option Byte, ∀ f : RegFile, (f.after e)[i] = o.getD f[i] := by
  cases e with
  | xfer r tx0 tx1 =>
    by_cases hw : tx0.extractLsb' 5 3 = 0b001#3 ∧ (tx0.extractLsb' 0 5).toFin = i
    · exact ⟨some tx1, fun f => by simp [RegFile.after, hw.1, ← hw.2]⟩
    · refine ⟨none, fun f => ?_⟩
      rw [RegFile.after]
      split
      next hcmd =>
        have hne : (tx0.extractLsb' 0 5).toFin ≠ i := fun he => hw ⟨hcmd, he⟩
        exact Vector.getElem_set_ne (Fin.isLt _) i.isLt (Fin.val_ne_of_ne hne)
      · rfl
  | _ => exact ⟨none, fun f => rfl⟩

/-- So does a list of events: each register ends with the byte of the last write to it, or as it
was. -/
theorem RegFile.replay_getElem (es : List Event) (i : Fin 32) :
    ∃ o : Option Byte, ∀ f : RegFile, (f.replay es)[i] = o.getD f[i] := by
  induction es with
  | nil => exact ⟨none, fun f => rfl⟩
  | cons e es ih =>
    obtain ⟨o, ho⟩ := ih
    obtain ⟨p, hp⟩ := RegFile.after_getElem e i
    refine ⟨o.or p, fun f => ?_⟩
    have hstep : (f.replay (e :: es))[i] = ((f.after e).replay es)[i] := rfl
    rw [hstep, ho, hp]
    cases o <;> rfl

/-- Writing the same again changes no register (41_device_fsm.md R156). -/
theorem RegFile.replay_twice (f : RegFile) (es : List Event) :
    f.replay (es ++ es) = f.replay es := by
  refine Vector.ext fun i hi => ?_
  obtain ⟨o, ho⟩ := RegFile.replay_getElem es ⟨i, hi⟩
  have happend : f.replay (es ++ es) = (f.replay es).replay es := List.foldl_append
  have honce : (f.replay es)[i] = o.getD f[i] := ho f
  have htwice : ((f.replay es).replay es)[i] = o.getD (f.replay es)[i] := ho (f.replay es)
  rw [happend, htwice, honce]
  cases o <;> rfl

/-- Settles O23: the second run starts from the LISTENING state of the first, with the next answers,
and sends the same events. -/
theorem configuringTwiceIsConfiguringOnce : Obligations.ConfiguringTwiceIsConfiguringOnce := by
  intro s ref hf hd h hok
  have hp := poweredUp_done ref s
  set t := powerUpDone ref (configureDone ref s)
  have hq := poweredUp_done ref t
  have hs : s.fsm ≠ .unattached := by simp [hf]
  have ht : t.fsm ≠ .unattached := by simp [hp.fsm]
  have hwr : t.wrFail = s.wrFail := by simp [hp.wrFail, hok]
  refine ⟨t, powerUpDone ref (configureDone ref t), configurePowerUpEvents s.cfg ref,
    configurePowerUpEvents s.cfg ref ++ configurePowerUpEvents s.cfg ref,
    hostRun_configure_powerUp hs hd h [], ?_, hp.responses, ?_, hp.fsm, hq.fsm, hp.ce, hq.ce,
    hp.devref, hq.devref.trans hp.devref, hp.attachFail, hq.attachFail.trans hp.attachFail,
    hp.rdFail, hq.rdFail.trans hp.rdFail, hwr, ?_, hp.hit, hq.hit.trans hp.hit, hp.events, ?_,
    rfl, rfl, fun f => (f.replay_twice _).symm⟩
  · rw [hostRun_configure_powerUp hs hd h,
      hostRun_configure_powerUp ht (hp.devref.trans hd) (hp.hangAfter.trans h)]
    rfl
  · rw [hq.responses, hp.responses, List.append_assoc]
    rfl
  · simp [hq.wrFail, hp.answers, hwr, hok]
  · rw [hq.events, hp.events, hp.cfg, List.append_assoc]

/-! ### Waits and frames -/

theorem totalDelay_append (es fs : List Event) :
    totalDelay (es ++ fs) = totalDelay es + totalDelay fs := by
  induction es with
  | nil => simp [totalDelay]
  | cons e es ih => cases e <;> simp [totalDelay, ih, Nat.add_assoc]

theorem frameCount_append (es fs : List Event) :
    frameCount (es ++ fs) = frameCount es + frameCount fs := by
  induction es with
  | nil => simp [frameCount]
  | cons e es ih => cases e <;> simp [frameCount, ih, Nat.add_right_comm]

/-- Busy tests of a list of channels: 150 microseconds and two frames each (R180). -/
theorem totalDelay_busyTests (cfg : Cfg) (ref : DevRef) (cs : List Channel) :
    totalDelay (cs.flatMap (busyTestEvents cfg ref)) = cs.length * 150 := by
  induction cs with
  | nil => rfl
  | cons c cs ih =>
    rw [List.flatMap_cons, totalDelay_append, ih, List.length_cons]
    change 150 + _ = _
    omega

theorem frameCount_busyTests (cfg : Cfg) (ref : DevRef) (cs : List Channel) :
    frameCount (cs.flatMap (busyTestEvents cfg ref)) = cs.length * 2 := by
  induction cs with
  | nil => rfl
  | cons c cs ih =>
    rw [List.flatMap_cons, frameCount_append, ih, List.length_cons]
    change 2 + _ = _
    omega

theorem totalDelay_replicate (k : Nat) (es : List Event) :
    totalDelay (List.replicate k es).flatten = k * totalDelay es := by
  induction k with
  | zero => simp [totalDelay]
  | succ k ih =>
    rw [List.replicate_succ, List.flatten_cons, totalDelay_append, ih, Nat.succ_mul, Nat.add_comm]

theorem frameCount_replicate (k : Nat) (es : List Event) :
    frameCount (List.replicate k es).flatten = k * frameCount es := by
  induction k with
  | zero => simp [frameCount]
  | succ k ih =>
    rw [List.replicate_succ, List.flatten_cons, frameCount_append, ih, Nat.succ_mul, Nat.add_comm]

@[simp] theorem answerBusy_events (b : BusyResult) (s : State) :
    (answerBusy b s).state.events = s.events := by
  unfold answerBusy
  split <;> rfl

/-- The events of repeated sweeps, for any number of them: the counters' bound of
`sweepRepeat_of_fair` is not needed. -/
theorem sweepRepeat_swept {ref : DevRef} (b m k : Nat) : ∀ {s : State}, s.Fair →
    ∃ t, sweepRepeat ref b m k s = .done () t ∧ Swept ref s t
      (List.replicate k ((windowChannels b m).flatMap (busyTestEvents s.cfg ref))).flatten
      (k * windowSize b m) := by
  induction k with
  | zero => exact fun {s} _ => ⟨s, rfl, by simpa using Swept.refl ref s⟩
  | succ k ih =>
    intro s h
    obtain ⟨u, hu, hsw, _⟩ := sweepOnce_of_fair (ref := ref) (b := b) (m := m) h
    obtain ⟨t, ht, hsw'⟩ := ih (hsw.keeps.hangAfter.trans h)
    refine ⟨t, by rw [sweepRepeat, hu, Ran.bind_done, ht], ?_⟩
    have hboth := hsw.trans hsw'
    rw [hsw.keeps.cfg, Nat.add_comm (windowSize b m), ← Nat.succ_mul] at hboth
    simpa [List.replicate_succ] using hboth

/-- The events of CYCLE, for any number of sweeps. -/
theorem exec_cycle_events {s : State} {ref : DevRef} (hf : s.fsm = .listening)
    (hd : s.devref = some ref) (h : s.Fair) :
    ∃ t, exec .cycle s = .next t ∧ t.events = s.events ++ (List.replicate s.cfg.sweepsPerCycle
      ((windowChannels s.cfg.winStart s.cfg.winCount).flatMap
        (busyTestEvents s.cfg ref))).flatten := by
  obtain ⟨u, hu, hsw⟩ := sweepRepeat_swept (ref := ref) s.cfg.winStart s.cfg.winCount
    s.cfg.sweepsPerCycle (s := s.clearHits) h
  refine ⟨u.respond .ok (BitVec.ofNat 16 (windowSize u.cfg.winStart u.cfg.winCount)), ?_,
    hsw.events⟩
  rw [exec, execCycle, withDevice_run hd (Fsm.allowsScan_listening hf), hu, Ran.bind_done,
    finish_state]

/-- Settles O39: each command's events are known, and waits and frames add up over them. -/
theorem commandsWaitAtLeastTheirBounds : Obligations.CommandsWaitAtLeastTheirBounds := by
  refine fun s ref hd h => ⟨fun hf => ?_, fun hf => ⟨fun c hc => ?_, fun b m => ?_, ?_⟩⟩
  · exact ⟨powerUpDone ref s, _, exec_powerUp_of_fair hf hd h,
      congrArg State.events (powerUpDone_eq ref s), rfl, rfl⟩
  · have hlt : c.toNat < 126 := Nat.lt_succ_of_le hc
    exact ⟨_, _, exec_busyTest_of_fair hf hd hlt h,
      (answerBusy_events _ _).trans (tested_swept ref _ s).events, rfl, rfl⟩
  · obtain ⟨u, hexec, hsw, _⟩ := exec_sweep_of_fair b m hf hd h
    refine ⟨_, _, hexec, hsw.events, ?_, ?_⟩
    · rw [totalDelay_busyTests, windowChannels_length, windowSize_eq]
    · rw [frameCount_busyTests, windowChannels_length, windowSize_eq]
  · obtain ⟨t, hexec, hev⟩ := exec_cycle_events hf hd h
    refine ⟨t, _, _, hexec, hev, windowSize_eq _ _, ?_, ?_⟩
    · rw [totalDelay_replicate, totalDelay_busyTests, windowChannels_length, Nat.mul_assoc]
    · rw [frameCount_replicate, frameCount_busyTests, windowChannels_length, Nat.mul_assoc]

end Sys2Proof.Machine

/-! PROOF. What writes the hit table (42_band_scanner.md R194), and the instructions one of whose
calls is never answered (70_reset_and_hazards.md R253, 60_exceptions.md R214): each instruction as
one sequence of calls, which is cut at that call. -/

namespace Sys2Proof.Machine

/-! ### Each instruction as one sequence of calls -/

/-- `withDevice`, before only the state is kept: also whether the sequence stands in a call. -/
def deviceRun (allowed : Fsm → Bool) (body : DevRef → State → Ran Unit) (s : State) : Ran Unit :=
  match s.devref with
  | some ref => if allowed s.fsm then body ref s else finish .errState 0 s
  | none => finish .errState 0 s

/-- `frameToDevice`, before only the state is kept. -/
def frameRun (body : DevRef → State → Ran Unit) (s : State) : Ran Unit :=
  match s.devref with
  | some ref => body ref s
  | none => .done () (s.setFrameOut .noDevice)

/-- An instruction as a sequence of calls; its state is what `exec` answers (`exec_eq_run`). -/
def run : Instr → State → Ran Unit
  | .nop, s => finish .ok 0 s
  | .attach, s =>
    if s.fsm = .unattached then (callAttach (driveLow (driveOutput s))).bind attachOutcome
    else finish .errState 0 s
  | .configure, s => deviceRun Fsm.allowsBus (fun ref s =>
      (regWrite ref s.cfg.addrEnAa s.cfg.valEnAa s).bind fun _ s =>
      (regWrite ref s.cfg.addrRfSetup s.cfg.valRfSetup s).bind fun _ s =>
      finish .ok 0 (raiseToConfigured s)) s
  | .powerUp, s => deviceRun Fsm.allowsPowerUp (fun ref s =>
      (regWrite ref s.cfg.addrConfig s.cfg.valConfig s).bind fun _ s =>
      (callDelay Config.puSettleUs s).bind fun _ s =>
      finish .ok 0 ((driveHigh s).setFsm .listening)) s
  | .readReg a8, s => deviceRun Fsm.allowsBus (fun ref s =>
      (regRead ref (addrOperand a8) s).bind answerRead) s
  | .writeReg a8 v, s => deviceRun Fsm.allowsBus (fun ref s =>
      (regWrite ref (addrOperand a8) v s).bind fun _ s => finish .ok 0 s) s
  | .busyTest c, s => deviceRun Fsm.allowsScan (fun ref s =>
      match channelOperand c with
      | some ch => (busyTest ref ch s).bind answerBusy
      | none => finish .errRange 0 s) s
  | .sweep b m, s => deviceRun Fsm.allowsScan (fun ref s =>
      (sweepOnce ref b.toNat m.toNat s).bind fun n s => finish .ok (BitVec.ofNat 16 n) s) s
  | .clearTable, s => finish .ok 0 s.clearHits
  | .cycle, s => deviceRun Fsm.allowsScan (fun ref s =>
      (sweepRepeat ref s.cfg.winStart s.cfg.winCount s.cfg.sweepsPerCycle s.clearHits).bind fun _ s =>
      finish .ok (BitVec.ofNat 16 (windowSize s.cfg.winStart s.cfg.winCount)) s) s
  | .readHit c, s =>
    match channelOperand c with
    | some ch => finish .ok (s.readHit ch) s
    | none => finish .errRange 0 s
  | .readStatus, s => finish .ok (statusWord s) s
  | .rFrame a, s => frameRun (fun ref s =>
      (regRead ref a s).bind fun r s => .done () (s.setFrameOut (.ofRead r))) s
  | .wFrame a v, s => frameRun (fun ref s =>
      (regWrite ref a v s).bind fun _ s => .done () (s.setFrameOut .nothing)) s

theorem deviceRun_state (allowed : Fsm → Bool) (body : DevRef → State → Ran Unit) (s : State) :
    (deviceRun allowed body s).state = withDevice allowed body s := by
  unfold deviceRun withDevice
  cases s.devref with
  | none => rfl
  | some ref => exact apply_ite Ran.state _ _ _

theorem frameRun_state (body : DevRef → State → Ran Unit) (s : State) :
    (frameRun body s).state = frameToDevice body s := by
  unfold frameRun frameToDevice
  cases s.devref <;> rfl

theorem exec_eq_run (i : Instr) (s : State) : exec i s = .next (run i s).state := by
  cases i with
  | nop | clearTable | readStatus => rfl
  | attach =>
    rw [exec, execAttach, run, apply_ite Ran.state]
    rfl
  | readHit c =>
    rw [exec, execReadHit, run]
    cases channelOperand c <;> rfl
  | configure | powerUp | readReg | writeReg | busyTest | sweep | cycle =>
    exact congrArg Host.Outcome.next (deviceRun_state _ _ s).symm
  | rFrame | wFrame => exact congrArg Host.Outcome.next (frameRun_state _ s).symm

theorem exec_of_run {i : Instr} {s : State} {r : Ran Unit} (h : run i s = r) :
    exec i s = .next r.state := by
  rw [exec_eq_run, h]

/-! ### A hang cuts every instruction short -/

/-- A sequence that from each state on, whatever hangs, is one that a hang cuts. -/
theorem Cuts.of_agree {α : Type} {g : State → Ran α}
    (h : ∀ s, ∃ g', Cuts g' ∧ g s = g' s ∧ ∀ n, g (s.hangingAfter n) = g' (s.hangingAfter n)) :
    Cuts g := fun s hs => by
  obtain ⟨g', hcut, hgs, hgn⟩ := h s
  simp only [hgs, hgn]
  exact hcut s hs

theorem finish_const_cuts (k : Code) (d : Half) : Cuts (finish k d) :=
  finish_cuts k (fun _ => d) fun _ _ => rfl

theorem deviceRun_cuts (allowed : Fsm → Bool) {body : DevRef → State → Ran Unit}
    (hb : ∀ ref, Cuts (body ref)) : Cuts (deviceRun allowed body) := by
  refine .of_agree fun s => ?_
  cases hd : s.devref with
  | none =>
    exact ⟨_, finish_const_cuts .errState 0, by simp only [deviceRun, hd],
      fun n => by simp only [deviceRun, State.hangingAfter, hd]⟩
  | some ref =>
    cases ha : allowed s.fsm with
    | false =>
      exact ⟨_, finish_const_cuts .errState 0, by simp [deviceRun, hd, ha],
        fun n => by simp [deviceRun, State.hangingAfter, hd, ha]⟩
    | true =>
      exact ⟨_, hb ref, by simp [deviceRun, hd, ha],
        fun n => by simp [deviceRun, State.hangingAfter, hd, ha]⟩

theorem setFrameOut_cuts (o : FrameOut) : Cuts fun s => .done () (s.setFrameOut o) :=
  .quiet (fun _ => ()) _ (fun _ => rfl) (fun _ h => h) (fun _ _ => rfl) (fun _ _ => rfl)
    fun _ => ⟨id, id⟩

theorem frameRun_cuts {body : DevRef → State → Ran Unit} (hb : ∀ ref, Cuts (body ref)) :
    Cuts (frameRun body) := by
  refine .of_agree fun s => ?_
  cases hd : s.devref with
  | none =>
    exact ⟨_, setFrameOut_cuts .noDevice, by simp only [frameRun, hd],
      fun n => by simp only [frameRun, State.hangingAfter, hd]⟩
  | some ref =>
    exact ⟨_, hb ref, by simp only [frameRun, hd],
      fun n => by simp only [frameRun, State.hangingAfter, hd]⟩

theorem attachOutcome_cuts (a : AttachAnswer) : Cuts (attachOutcome a) := by
  cases a with
  | ok ref =>
    exact (finish_const_cuts .ok 0).after (fun s => (s.setDevref ref).setFsm .attached)
      (fun _ => rfl) (fun _ h => h) (fun _ _ => rfl) fun _ => ⟨id, id⟩
  | err =>
    exact (finish_const_cuts .attachFail 0).after State.flagAttachFail
      (fun _ => rfl) (fun _ h => h) (fun _ _ => rfl) fun _ => ⟨id, id⟩

/-- ATTACH's two GPIO calls do not block (60_exceptions.md R224), so its one blocking call is the
request. -/
theorem attachCalls_cuts :
    Cuts fun s => (callAttach (driveLow (driveOutput s))).bind attachOutcome :=
  have hdrive : Cuts fun s => Ran.done () (driveLow (driveOutput s)) :=
    .pure (fun _ => ()) _
      (fun s => [.gpioMode s.cfg.enLine .output, .gpioLevel s.cfg.enLine .low]) (fun _ => rfl)
      (fun _ => List.append_assoc _ _ _) (fun _ h => h) (fun _ _ => rfl) (fun _ _ => rfl)
      fun _ => ⟨id, id⟩
  hdrive.bind (f := fun _ s => (callAttach s).bind attachOutcome) fun _ =>
    callAttach_cuts.bind attachOutcome_cuts

theorem answerRead_cuts (r : ReadResult) : Cuts (answerRead r) := by
  cases r with
  | value v => exact finish_const_cuts .ok (v.zeroExtend 16)
  | failed => exact finish_const_cuts .xferFail 0

theorem answerBusy_cuts (b : BusyResult) : Cuts (answerBusy b) := by
  unfold answerBusy
  cases b.failed with
  | true => exact finish_const_cuts .xferFail 0
  | false => exact finish_const_cuts .ok _

theorem raiseToConfigured_cuts : Cuts fun s => finish .ok 0 (raiseToConfigured s) := by
  refine (finish_const_cuts .ok 0).after raiseToConfigured raiseToConfigured_events
    (fun s h => ?_) (fun s n => ?_) fun s => ?_
  · rw [raiseToConfigured_eq]
    exact h
  · rw [raiseToConfigured_eq, raiseToConfigured_eq]
    rfl
  · rw [raiseToConfigured_eq]
    exact ⟨id, id⟩

theorem driveHigh_cuts : Cuts fun s => finish .ok 0 ((driveHigh s).setFsm .listening) :=
  .pure (fun _ => ()) (fun s => ((driveHigh s).setFsm .listening).respond .ok 0)
    (fun s => [.gpioLevel s.cfg.enLine .high]) (fun _ => rfl) (fun _ => rfl) (fun _ h => h)
    (fun _ _ => rfl) (fun _ _ => rfl) fun _ => ⟨id, id⟩

theorem cycleCalls_cuts (ref : DevRef) : Cuts fun s =>
    (sweepRepeat ref s.cfg.winStart s.cfg.winCount s.cfg.sweepsPerCycle s.clearHits).bind fun _ s =>
      finish .ok (BitVec.ofNat 16 (windowSize s.cfg.winStart s.cfg.winCount)) s :=
  .of_agree fun s => ⟨_,
    (((sweepRepeat_cuts ref s.cfg.winStart s.cfg.winCount s.cfg.sweepsPerCycle).after
      State.clearHits (fun _ => rfl) (fun _ h => h) (fun _ _ => rfl) fun _ => ⟨id, id⟩).bind fun _ =>
        finish_cuts .ok (fun s => BitVec.ofNat 16 (windowSize s.cfg.winStart s.cfg.winCount))
          fun _ _ => rfl),
    rfl, fun _ => rfl⟩

/-- Every instruction is cut by a call that is never answered. -/
theorem run_cuts (i : Instr) : Cuts (run i) := by
  cases i with
  | nop => exact finish_const_cuts .ok 0
  | attach =>
    refine .of_agree fun s => ?_
    by_cases hf : s.fsm = .unattached
    · exact ⟨_, attachCalls_cuts, if_pos hf, fun n => if_pos hf⟩
    · exact ⟨_, finish_const_cuts .errState 0, if_neg hf, fun n => if_neg hf⟩
  | configure =>
    exact deviceRun_cuts _ fun ref =>
      (regWrite_cuts ref (fun s => s.cfg.addrEnAa) (fun s => s.cfg.valEnAa) (fun _ _ => rfl)
        fun _ _ => rfl).bind fun _ =>
      (regWrite_cuts ref (fun s => s.cfg.addrRfSetup) (fun s => s.cfg.valRfSetup) (fun _ _ => rfl)
        fun _ _ => rfl).bind fun _ => raiseToConfigured_cuts
  | powerUp =>
    exact deviceRun_cuts _ fun ref =>
      (regWrite_cuts ref (fun s => s.cfg.addrConfig) (fun s => s.cfg.valConfig) (fun _ _ => rfl)
        fun _ _ => rfl).bind fun _ =>
      (callDelay_cuts Config.puSettleUs).bind fun _ => driveHigh_cuts
  | readReg a8 =>
    exact deviceRun_cuts _ fun ref =>
      (regRead_cuts ref (fun _ => addrOperand a8) fun _ _ => rfl).bind answerRead_cuts
  | writeReg a8 v =>
    exact deviceRun_cuts _ fun ref =>
      (regWrite_cuts ref (fun _ => addrOperand a8) (fun _ => v) (fun _ _ => rfl)
        fun _ _ => rfl).bind fun _ => finish_const_cuts .ok 0
  | busyTest c =>
    refine deviceRun_cuts _ fun ref => ?_
    cases channelOperand c with
    | some ch => exact (busyTest_cuts ref ch).bind answerBusy_cuts
    | none => exact finish_const_cuts .errRange 0
  | sweep b m =>
    exact deviceRun_cuts _ fun ref =>
      (sweepOnce_cuts ref b.toNat m.toNat).bind fun n => finish_const_cuts .ok (BitVec.ofNat 16 n)
  | clearTable =>
    exact (finish_const_cuts .ok 0).after State.clearHits (fun _ => rfl) (fun _ h => h)
      (fun _ _ => rfl) fun _ => ⟨id, id⟩
  | cycle => exact deviceRun_cuts _ cycleCalls_cuts
  | readHit c =>
    change Cuts fun s => match channelOperand c with
      | some ch => finish .ok (s.readHit ch) s
      | none => finish .errRange 0 s
    cases channelOperand c with
    | some ch => exact finish_cuts .ok (fun s => s.readHit ch) fun _ _ => rfl
    | none => exact finish_const_cuts .errRange 0
  | readStatus => exact finish_cuts .ok statusWord fun _ _ => rfl
  | rFrame a =>
    exact frameRun_cuts fun ref => (regRead_cuts ref (fun _ => a) fun _ _ => rfl).bind fun r =>
      setFrameOut_cuts (.ofRead r)
  | wFrame a v =>
    exact frameRun_cuts fun ref => (regWrite_cuts ref (fun _ => a) (fun _ => v) (fun _ _ => rfl)
      fun _ _ => rfl).bind fun _ => setFrameOut_cuts .nothing

/-! ### Done, or standing in a call -/

/-- How an instruction's sequence of calls can end. Unlike `ExecShape` it tells a sequence that is
done from one that stands in a call also where the block was busy before. -/
inductive RunShape (i : Instr) (s : State) : Ran Unit → Prop where
  /-- It is done: a command has answered. -/
  | done (t : State) (h : isCommand i = true → t.busy = false) : RunShape i s (.done () t)
  /-- It is ATTACH and stands in its request. -/
  | attachHung (hi : i = .attach) : RunShape i s (.hung (attachSent s).stuck)
  /-- It stands in a call to its device. -/
  | busHung (hi : i ≠ .attach) (ref : DevRef) (es : List Event) (t : State)
      (step : BusStep ref es (scanStart i s) t) (hhit : countsHits i = false → t.hit = s.hit)
      (busy : t.busy = true) : RunShape i s (.hung t)

theorem runShape_finish (i : Instr) (s u : State) (k : Code) (d : Half) :
    RunShape i s (finish k d u) := .done _ fun _ => rfl

section
variable {i : Instr} {s : State}

theorem runShape_deviceRun {allowed : Fsm → Bool} {body : DevRef → State → Ran Unit}
    (hb : ∀ ref, RunShape i s (body ref s)) : RunShape i s (deviceRun allowed body s) := by
  unfold deviceRun
  cases s.devref with
  | none => exact runShape_finish ..
  | some ref =>
    change RunShape i s (if _ then _ else _)
    split
    · exact hb ref
    · exact runShape_finish ..

theorem runShape_frameRun {body : DevRef → State → Ran Unit} (hc : isCommand i = false)
    (hb : ∀ ref, RunShape i s (body ref s)) : RunShape i s (frameRun body s) := by
  unfold frameRun
  cases s.devref with
  | none => exact .done _ fun h => by simp [hc] at h
  | some ref => exact hb ref

/-- Calls to a device, and then an ending of no call. -/
theorem runShape_of_bus {ref : DevRef} {n : Nat} {α : Type} {r : Ran α}
    {f : α → State → Ran Unit} (hi : i ≠ .attach) (hr : r.Bus ref n (scanStart i s))
    (hhit : countsHits i = false → r.state.hit = s.hit)
    (hf : ∀ a u, RunShape i s (f a u)) : RunShape i s (r.bind f) := by
  cases hr with
  | done a u es step le busy => exact hf a u
  | hung t es step le busy => exact .busHung hi ref es t step hhit busy

end

theorem run_shape (i : Instr) (s : State) : RunShape i s (run i s) := by
  cases i with
  | nop | clearTable | readStatus => exact runShape_finish ..
  | readHit c =>
    rw [run]
    cases channelOperand c <;> exact runShape_finish ..
  | attach =>
    rw [run]
    split
    · rcases callAttach_cases s with ⟨_, h⟩ | ⟨_, h⟩
      · rw [h]
        exact .attachHung rfl
      · rw [h, Ran.bind_done]
        cases s.attachAnswer <;> exact runShape_finish ..
    · exact runShape_finish ..
  | configure =>
    rw [run]
    refine runShape_deviceRun fun ref => ?_
    rw [← Ran.bind_assoc]
    exact runShape_of_bus (by simp)
      ((regWrite_bus ref _ _ s).bind fun _ t _ => regWrite_bus ref _ _ t)
      (fun _ => bind_hit (regWrite_hit ref _ _ s) fun _ t => regWrite_hit ref _ _ t)
      fun _ _ => runShape_finish ..
  | powerUp =>
    rw [run]
    refine runShape_deviceRun fun ref => ?_
    rw [← Ran.bind_assoc]
    exact runShape_of_bus (by simp)
      ((regWrite_bus ref _ _ s).bind fun _ t _ => callDelay_bus ref _ t (.inr rfl))
      (fun _ => bind_hit (regWrite_hit ref _ _ s) fun _ t => callDelay_hit _ t)
      fun _ _ => runShape_finish ..
  | readReg a8 =>
    rw [run]
    exact runShape_deviceRun fun ref => runShape_of_bus (by simp) (regRead_bus ref _ s)
      (fun _ => regRead_hit ref _ s) fun r _ => by cases r <;> exact runShape_finish ..
  | writeReg a8 v =>
    rw [run]
    exact runShape_deviceRun fun ref => runShape_of_bus (by simp) (regWrite_bus ref _ _ s)
      (fun _ => regWrite_hit ref _ _ s) fun _ _ => runShape_finish ..
  | busyTest c =>
    rw [run]
    refine runShape_deviceRun fun ref => ?_
    cases channelOperand c with
    | none => exact runShape_finish ..
    | some ch =>
      refine runShape_of_bus (by simp) (busyTest_bus ref ch s) (fun _ => busyTest_hit ref ch s)
        fun b _ => ?_
      unfold answerBusy
      split <;> exact runShape_finish ..
  | sweep b m =>
    rw [run]
    exact runShape_deviceRun fun ref => runShape_of_bus (by simp) (sweepOnce_bus ref _ _ s)
      (fun h => by cases h) fun _ _ => runShape_finish ..
  | cycle =>
    rw [run]
    exact runShape_deviceRun fun ref => runShape_of_bus (by simp)
      (sweepRepeat_bus ref _ _ _ s.clearHits) (fun h => by cases h) fun _ _ => runShape_finish ..
  | rFrame a =>
    rw [run]
    exact runShape_frameRun rfl fun ref => runShape_of_bus (by simp) (regRead_bus ref _ s)
      (fun _ => regRead_hit ref _ s) fun _ _ => .done _ fun h => by cases h
  | wFrame a v =>
    rw [run]
    exact runShape_frameRun rfl fun ref => runShape_of_bus (by simp) (regWrite_bus ref _ _ s)
      (fun _ => regWrite_hit ref _ _ s) fun _ _ => .done _ fun h => by cases h

section
variable {i : Instr} {s t : State}

/-- A command whose sequence is done has answered. -/
theorem run_done_not_busy (hc : isCommand i = true) (h : run i s = .done () t) :
    t.busy = false := by
  have hshape := run_shape i s
  rw [h] at hshape
  cases hshape with
  | done _ hb => exact hb hc

/-- What a call that is never answered leaves, where no other is due to hang. -/
theorem run_hung_stands (h : run i s = .hung t) (hfair : t.Fair) :
    StandsIn s t ∧ FlagsKept s t ∧ t.ce = (if i = .attach then .low else s.ce) ∧
      (countsHits i = false → t.hit = s.hit) := by
  have hshape := run_shape i s
  rw [h] at hshape
  cases hshape with
  | attachHung hi =>
    subst hi
    exact ⟨⟨by simp, by simp, by simp, by simp, by simp, by simp, by simp, by simp, by simp,
      by simp, by simp, by simp, by simp, hfair⟩, ⟨by simp, by simp⟩, by simp, by simp⟩
  | busHung hi ref es _ step hhit busy =>
    refine ⟨⟨busy, ?_, ?_, ?_, ?_, ?_, ?_, ?_, ?_, ?_, ?_, ?_, ?_, hfair⟩,
      ⟨by simpa using step.rdFail, by simpa using step.wrFail⟩, ?_, hhit⟩
    · simp [step.resp]
    · simp [step.respWaiting]
    · simp [step.responses]
    · simp [step.cfg]
    · simp [step.fsm]
    · simp [step.devref]
    · simp [step.attachFail]
    · simp [step.cmdIn]
    · simp [step.hostIn]
    · simp [step.frameIn]
    · simp [step.frameOut]
    · simp [step.attachIn]
    · simp [step.ce, hi]

/-- The instructions that do not count are all but SWEEP and CYCLE (42_band_scanner.md R194). -/
theorem countsHits_eq_false (hs : ∀ b m, i ≠ .sweep b m) (hc : i ≠ .cycle) :
    countsHits i = false := by
  cases i with
  | sweep b m => exact absurd rfl (hs b m)
  | cycle => exact absurd rfl hc
  | _ => rfl

end

/-- Settles O53: the run with every call answered is cut at the call that is not, and standing in a
call an instruction has written only what its calls have. -/
theorem unansweredCallStopsTheInstructionThere :
    Obligations.UnansweredCallStopsTheInstructionThere := by
  intro i s u n hu
  obtain ⟨_, v, es, hrun, _, _, hev, hcut⟩ := run_cuts i s.fairly rfl
  obtain rfl : v = u := by
    rw [exec_of_run hrun] at hu
    injection hu
  obtain ⟨hlater, hstops⟩ := hcut n
  refine ⟨es, hev, fun hle => ?_, fun hlt => ?_⟩
  · exact exec_of_run (hlater hle)
  · obtain ⟨t, fs, ht, _, hfair, hflags, hevt, hprefix, hcount, hlast⟩ := hstops hlt
    obtain ⟨hstands, hkept, hce, hhit⟩ := run_hung_stands ht hfair
    exact ⟨t, fs, exec_of_run ht, { hstands with }, hevt, hprefix, hcount, hlast, { hkept with },
      hflags, hce, fun hs hc => hhit (countsHits_eq_false hs hc)⟩

/-! ### One response, or none -/

/-- A command's next state has answered once, or stands busy with no response. -/
theorem ExecShape.answered_or_busy {i : Instr} {s t : State} (h : ExecShape i s t)
    (hc : isCommand i = true) :
    Answered s t t.resp ∨ (t.busy = true ∧ t.resp = s.resp ∧ t.respWaiting = s.respWaiting ∧
      t.responses = s.responses) := by
  cases h with
  | answer hi k d ht => subst ht; exact .inl ⟨rfl, rfl, rfl, rfl⟩
  | clear hi ht => subst ht; exact .inl ⟨rfl, rfl, rfl, rfl⟩
  | noDevice hi hd ht => simp [hc] at hi
  | attachHung hi hf ht => exact .inr (by simp [ht])
  | attachDone hi hf u hu ht =>
    subst hu
    obtain ⟨ref, _, rfl⟩ | ⟨_, rfl⟩ := ht
    · exact .inl ⟨rfl, rfl, rfl, by simp⟩
    · exact .inl ⟨rfl, rfl, rfl, by simp⟩
  | busHung ref hd hi ha es step hes hhit busy =>
    exact .inr ⟨busy, by simp [step.resp], by simp [step.respWaiting], by simp [step.responses]⟩
  | busDone ref hd hi hc ha u es step hes hpu hhit k d ht =>
    subst ht
    exact .inl ⟨rfl, rfl, rfl, by simp [step.responses]⟩
  | frameDone hi ref hd u es step hes hhit busy o ht => simp [hc] at hi

/-- Settles O49: where every call is answered the sequence is done, so the command has answered. -/
theorem everyCommandAnswersOnceOrStaysBusy : Obligations.EveryCommandAnswersOnceOrStaysBusy := by
  intro i s hc
  obtain ⟨t, ht, hx⟩ := exec_shape i s
  have hends := hx.answered_or_busy hc
  refine ⟨t, ht, hends, fun h => hends.resolve_right fun ⟨hbusy, _⟩ => ?_⟩
  obtain ⟨_, u, _, hrun, _⟩ := run_cuts i s h
  obtain rfl : u = t := by
    rw [exec_of_run hrun] at ht
    injection ht
  rw [run_done_not_busy hc hrun] at hbusy
  cases hbusy

/-! ### The first call of a command -/

section
variable {s : State} {ref : DevRef} (h : s.hangAfter = some 0)
include h

theorem callXfer_first_hangs (tx0 tx1 : Byte) :
    callXfer ref tx0 tx1 s = .hung (s.emit (.xfer ref tx0 tx1)).stuck := by
  rw [callXfer, awaitAnswer_of_hang (s := s.emit _) h, Ran.bind_hung]

theorem regWrite_first_hangs (a : RegAddr) (v : Byte) :
    regWrite ref a v s = .hung (s.emit (.xfer ref (writeByte a) v)).stuck := by
  rw [regWrite, callXfer_first_hangs h, Ran.bind_hung]

theorem regRead_first_hangs (a : RegAddr) :
    regRead ref a s = .hung (s.emit (.xfer ref (readByte a) s.cfg.filler)).stuck := by
  rw [regRead, callXfer_first_hangs h, Ran.bind_hung]

theorem exec_attach_first_hangs (hf : s.fsm = .unattached) :
    exec .attach s = .next (attachSent s).stuck := by
  rw [exec, execAttach, if_pos hf]
  rcases callAttach_cases s with ⟨_, hcall⟩ | ⟨hne, _⟩
  · rw [hcall, Ran.bind_hung, Ran.state_hung]
  · exact absurd h hne

/-- The five other commands begin with a transfer to their device. -/
theorem exec_first_hangs {i : Instr} (hi : alwaysCalls i = true) (hne : i ≠ .attach)
    (ha : allowedIn i s.fsm = true) (hd : s.devref = some ref) :
    ∃ tx0 tx1, exec i s = .next (s.emit (.xfer ref tx0 tx1)).stuck := by
  cases i with
  | attach => exact absurd rfl hne
  | configure =>
    have hf : s.fsm ≠ .unattached := by simpa [allowedIn] using ha
    exact ⟨_, _, by rw [exec, execConfigure, withDevice_run hd (Fsm.allowsBus_of_ne hf),
      regWrite_first_hangs h, Ran.bind_hung, Ran.state_hung]⟩
  | powerUp =>
    exact ⟨_, _, by rw [exec, execPowerUp, withDevice_run hd ((Fsm.allowsPowerUp_eq _).trans ha),
      regWrite_first_hangs h, Ran.bind_hung, Ran.state_hung]⟩
  | readReg a8 =>
    have hf : s.fsm ≠ .unattached := by simpa [allowedIn] using ha
    exact ⟨_, _, by rw [exec, execReadReg, withDevice_run hd (Fsm.allowsBus_of_ne hf),
      regRead_first_hangs h, Ran.bind_hung, Ran.state_hung]⟩
  | writeReg a8 v =>
    have hf : s.fsm ≠ .unattached := by simpa [allowedIn] using ha
    exact ⟨_, _, by rw [exec, execWriteReg, withDevice_run hd (Fsm.allowsBus_of_ne hf),
      regWrite_first_hangs h, Ran.bind_hung, Ran.state_hung]⟩
  | busyTest c =>
    have hf : s.fsm = .listening := by simpa [allowedIn] using ha
    have hc : c.toNat < 126 := Nat.lt_succ_of_le (by simpa [alwaysCalls] using hi)
    refine ⟨writeByte s.cfg.addrRfCh, channelByte ⟨c.toNat, hc⟩, ?_⟩
    rw [exec, execBusyTest, withDevice_run hd (Fsm.allowsScan_listening hf),
      channelOperand_of_lt hc]
    change Host.Outcome.next ((busyTest ref ⟨c.toNat, hc⟩ s).bind answerBusy).state = _
    rw [busyTest, regWrite_first_hangs h, Ran.bind_hung, Ran.bind_hung, Ran.state_hung]
  | nop | sweep | clearTable | cycle | readHit | readStatus | rFrame | wFrame => cases hi

end

/-- Of the commands that always call, ATTACH alone runs without a device (41_device_fsm.md R150). -/
theorem allowedIn_unattached {i : Instr} (hi : alwaysCalls i = true) (hne : i ≠ .attach) :
    allowedIn i .unattached = false := by
  cases i with
  | attach => exact absurd rfl hne
  | configure | powerUp | readReg | writeReg | busyTest => rfl
  | nop | sweep | clearTable | cycle | readHit | readStatus | rFrame | wFrame => cases hi

/-- Settles O50: ATTACH stands in its request, the others in their first transfer, which all but the
enable line and the trace have come through as they were. -/
theorem unansweredCallLeavesTheCommandInProgress :
    Obligations.UnansweredCallLeavesTheCommandInProgress := by
  intro i s hi ha hinv h
  by_cases hattach : i = .attach
  · subst hattach
    have hf : s.fsm = .unattached := by simpa [allowedIn] using ha
    exact ⟨_, exec_attach_first_hangs h hf, by simp, by simp, by simp, by simp, by simp, by simp,
      by simp, by simp, by simp, by simp,
      .inr ⟨s.cfg.busId, s.cfg.csLine, s.cfg.spiClkHz, s.cfg.spiMode, by simp⟩⟩
  · have hf : s.fsm ≠ .unattached := fun hf => by
      rw [hf, allowedIn_unattached hi hattach] at ha
      cases ha
    obtain ⟨ref, hd⟩ := hinv.exists_devref hf
    obtain ⟨tx0, tx1, hexec⟩ := exec_first_hangs h hi hattach ha hd
    exact ⟨_, hexec, rfl, rfl, rfl, rfl, rfl, rfl, rfl, rfl, rfl, (if_neg hattach).symm,
      .inl ⟨ref, tx0, tx1, by simp⟩⟩

/-! ### Who writes the hit table -/

/-- A sweep, answered or not, leaves each counter or raises it once (42_band_scanner.md R185). -/
theorem sweepOnce_hit (ref : DevRef) (b m : Nat) (s : State) (d : Channel) :
    (sweepOnce ref b m s).state.hit[d] = s.hit[d] ∨
      (sweepOnce ref b m s).state.hit[d] = satInc s.hit[d] := by
  cases hh : s.hangAfter with
  | none =>
    obtain ⟨t, ht, _, hhit⟩ := sweepOnce_of_fair (ref := ref) (b := b) (m := m) hh
    rw [ht]
    exact (ite_eq_or_eq _ _ _).symm.imp (hhit d).trans (hhit d).trans
  | some n =>
    have hs : s.fairly.hangingAfter n = s := State.hangingAfter_of_eq hh
    by_cases hn : n < 3 * windowSize b m
    · obtain ⟨t, ht, _, _, hhit⟩ := sweepOnce_of_hang (ref := ref) (s := s.fairly) rfl hn
      rw [hs] at ht
      rw [ht]
      exact (ite_eq_or_eq _ _ _).symm.imp (hhit d).trans (hhit d).trans
    · obtain ⟨t, ht, hsw, hhit⟩ :=
        sweepOnce_of_fair (ref := ref) (b := b) (m := m) (s := s.fairly) rfl
      have hcalls :
          blockingCalls ((windowChannels b m).flatMap (busyTestEvents s.cfg ref)) ≤ n := by
        rw [sweepEvents_blocking, windowChannels_length]
        omega
      have hrun := (sweepOnce_cuts ref b m).later rfl ht hsw.events hcalls
      rw [hs] at hrun
      rw [hrun]
      exact (ite_eq_or_eq _ _ _).symm.imp (hhit d).trans (hhit d).trans

section
variable {s : State}

theorem execSweep_hit {b m : Byte} {t : State} (h : exec (.sweep b m) s = .next t) (d : Channel) :
    t.hit[d] = s.hit[d] ∨ t.hit[d] = satInc s.hit[d] := by
  rw [exec, execSweep] at h
  injection h with h
  subst h
  rcases withDevice_cases Fsm.allowsScan (fun ref s => (sweepOnce ref b.toNat m.toNat s).bind
    fun n s => finish .ok (BitVec.ofNat 16 n) s) s with ⟨ref, _, _, hrun⟩ | ⟨_, hrun⟩
  · have hresp : ((sweepOnce ref b.toNat m.toNat s).bind fun n s =>
        finish .ok (BitVec.ofNat 16 n) s).state.hit =
          (sweepOnce ref b.toNat m.toNat s).state.hit := by
      cases sweepOnce ref b.toNat m.toNat s <;> rfl
    rw [hrun, hresp]
    exact sweepOnce_hit ref b.toNat m.toNat s d
  · rw [hrun]
    exact .inl rfl

/-- Instructions that neither scan nor clear leave the table (42_band_scanner.md R194). -/
theorem ExecShape.hit_eq {i : Instr} {t : State} (h : ExecShape i s t)
    (hi : countsHits i = false) (hclear : i ≠ .clearTable) : t.hit = s.hit := by
  cases h with
  | answer _ k d ht => simp [ht]
  | clear hc ht => exact absurd hc hclear
  | noDevice _ hd ht => simp [ht]
  | attachHung _ hf ht => simp [ht]
  | attachDone _ hf u hu ht =>
    subst hu
    obtain ⟨ref, _, rfl⟩ | ⟨_, rfl⟩ := ht <;> simp
  | busHung ref hd _ ha es step hes hhit busy => exact hhit hi
  | busDone ref hd _ hc ha u es step hes hpu hhit k d ht => simp [ht, hhit hi]
  | frameDone _ ref hd u es step hes hhit busy o ht => simp [ht, hhit]

end

/-- Settles O37: a sweep counts each channel of its window at most once, also where a call of it is
never answered. -/
theorem onlyScansAndClearsWriteTheTable : Obligations.OnlyScansAndClearsWriteTheTable := by
  refine fun i s t h => ⟨fun hclear hcycle hsweep c => ?_, ?_, ?_⟩
  · rw [(exec_shape_of_next h).hit_eq (countsHits_eq_false hsweep hcycle) hclear]
  · rintro ⟨b, m, rfl⟩ c
    exact (execSweep_hit h c).imp_right fun hc => by rw [hc, satInc_toNat]
  · rintro rfl c
    rw [exec, execClearTable] at h
    injection h with h
    exact h ▸ s.readHit_clearHits c

/-! ### A scan that stands in a call -/

/-- Of blocking calls alone, the first ones up to a number of them are that many events. -/
theorem eq_take_of_prefix {es fs : List Event} {n : Nat} (hall : ∀ e ∈ es, e.blocking = true)
    (hp : fs <+: es) (hn : blockingCalls fs = n) : fs = es.take n := by
  have hlen : blockingCalls fs = fs.length :=
    List.countP_eq_length.2 fun e he => hall e (hp.subset he)
  rw [← hn, hlen]
  exact List.prefix_iff_eq_take.1 hp

theorem busyTests_blocking (cfg : Cfg) (ref : DevRef) (cs : List Channel) :
    ∀ e ∈ cs.flatMap (busyTestEvents cfg ref), e.blocking = true := by
  intro e he
  obtain ⟨c, _, hc⟩ := List.mem_flatMap.1 he
  simp only [busyTestEvents, List.mem_cons, List.not_mem_nil, or_false] at hc
  obtain rfl | rfl | rfl := hc <;> rfl

theorem blockingCalls_replicate (k : Nat) (es : List Event) :
    blockingCalls (List.replicate k es).flatten = k * blockingCalls es := by
  induction k with
  | zero => simp [blockingCalls]
  | succ k ih =>
    rw [List.replicate_succ, List.flatten_cons, blockingCalls_append, ih, Nat.succ_mul,
      Nat.add_comm]

section
variable {s u : State} {ref : DevRef} {n : Nat}

/-- A scan stands in its call `n + 1`, after the first `n + 1` events of its run with every call
answered. -/
theorem scan_stands {i : Instr} {es : List Event} (hi : i ≠ .attach) (h : s.hangAfter = some n)
    (hu : exec i s.fairly = .next u) (hev : u.events = s.events ++ es)
    (hall : ∀ e ∈ es, e.blocking = true) (hn : n < blockingCalls es) :
    ∃ t, exec i s = .next t ∧ StandsIn s t ∧ t.ce = s.ce ∧
      t.events = s.events ++ es.take (n + 1) := by
  obtain ⟨es', hev', _, hstops⟩ := unansweredCallStopsTheInstructionThere i s u n hu
  obtain rfl := List.append_cancel_left (hev'.symm.trans hev)
  obtain ⟨t, fs, hexec, hstands, hevt, hp, hcount, _, _, _, hce, _⟩ := hstops hn
  rw [State.hangingAfter_of_eq h] at hexec
  exact ⟨t, hexec, hstands, hce.trans (if_neg hi), eq_take_of_prefix hall hp hcount ▸ hevt⟩

theorem exec_sweep_of_hung {b m : Byte} {t : State} (hf : s.fsm = .listening)
    (hd : s.devref = some ref) (h : sweepOnce ref b.toNat m.toNat s = .hung t) :
    exec (.sweep b m) s = .next t := by
  rw [exec, execSweep, withDevice_run hd (Fsm.allowsScan_listening hf), h, Ran.bind_hung,
    Ran.state_hung]

theorem exec_cycle_of_hung {t : State} (hf : s.fsm = .listening) (hd : s.devref = some ref)
    (h : sweepRepeat ref s.cfg.winStart s.cfg.winCount s.cfg.sweepsPerCycle s.clearHits = .hung t) :
    exec .cycle s = .next t := by
  rw [exec, execCycle, withDevice_run hd (Fsm.allowsScan_listening hf), h, Ran.bind_hung,
    Ran.state_hung]

/-- SWEEP standing in a call: what it has issued, flagged and counted. -/
theorem exec_sweep_of_hang (b m : Byte) (hf : s.fsm = .listening) (hd : s.devref = some ref)
    (h : s.hangAfter = some n) (hn : n < 3 * windowSize b.toNat m.toNat) :
    ∃ t, exec (.sweep b m) s = .next t ∧ StandsIn s t ∧ t.ce = s.ce ∧
      t.events = s.events ++ ((windowChannels b.toNat m.toNat).flatMap
        (busyTestEvents s.cfg ref)).take (n + 1) ∧
      t.wrFail = (s.wrFail || (List.range ((n + 2) / 3)).any fun j => (s.nthXfer (2 * j)).isErr) ∧
      t.rdFail = (s.rdFail || (List.range (n / 3)).any fun j => (s.nthXfer (2 * j + 1)).isErr) ∧
      ∀ c : Channel, t.hit[c] =
        if b.toNat ≤ c.val ∧ c.val < b.toNat + n / 3 ∧
          (s.nthXfer (2 * (c.val - b.toNat) + 1)).isBusy = true
        then satInc s.hit[c] else s.hit[c] := by
  obtain ⟨u, hu, hsw, _⟩ := exec_sweep_of_fair (s := s.fairly) b m hf hd rfl
  obtain ⟨t, hexec, hstands, hce, hev⟩ := scan_stands (by simp) h hu hsw.events
    (busyTests_blocking s.cfg ref _) (by rwa [sweepEvents_blocking, windowChannels_length])
  obtain ⟨t', ht', hrd, hwr, hhit⟩ := sweepOnce_of_hang (ref := ref) (s := s.fairly) rfl hn
  have hs : s.fairly.hangingAfter n = s := State.hangingAfter_of_eq h
  rw [hs] at ht'
  obtain rfl : t = t' := by
    have hboth := hexec.symm.trans (exec_sweep_of_hung hf hd ht')
    injection hboth
  exact ⟨t, hexec, hstands, hce, hev, hwr, hrd, hhit⟩

/-- CYCLE standing in a call: it counts from the cleared table. -/
theorem exec_cycle_of_hang (hf : s.fsm = .listening) (hd : s.devref = some ref)
    (h : s.hangAfter = some n) (hk : s.cfg.sweepsPerCycle ≤ 65535)
    (hn : n < 3 * (s.cfg.sweepsPerCycle * windowSize s.cfg.winStart s.cfg.winCount)) :
    ∃ t, exec .cycle s = .next t ∧ StandsIn s t ∧ t.ce = s.ce ∧
      t.events = s.events ++ (List.replicate s.cfg.sweepsPerCycle
        ((windowChannels s.cfg.winStart s.cfg.winCount).flatMap
          (busyTestEvents s.cfg ref))).flatten.take (n + 1) ∧
      t.wrFail = (s.wrFail || (List.range ((n + 2) / 3)).any fun j => (s.nthXfer (2 * j)).isErr) ∧
      t.rdFail = (s.rdFail || (List.range (n / 3)).any fun j => (s.nthXfer (2 * j + 1)).isErr) ∧
      ∀ c : Channel, t.hit[c].toNat =
        if s.cfg.winStart ≤ c.val ∧ c.val < windowEnd s.cfg.winStart s.cfg.winCount then
          (List.range s.cfg.sweepsPerCycle).countP fun j =>
            decide (j * windowSize s.cfg.winStart s.cfg.winCount + (c.val - s.cfg.winStart) < n / 3) &&
              (s.nthXfer (2 * (j * windowSize s.cfg.winStart s.cfg.winCount +
                (c.val - s.cfg.winStart)) + 1)).isBusy
        else 0 := by
  obtain ⟨u, hu, hsw, _⟩ := exec_cycle_of_fair (s := s.fairly) hf hd rfl hk
  have hall : ∀ e ∈ (List.replicate s.cfg.sweepsPerCycle
      ((windowChannels s.cfg.winStart s.cfg.winCount).flatMap
        (busyTestEvents s.cfg ref))).flatten, e.blocking = true := by
    intro e he
    obtain ⟨es, hes, hmem⟩ := List.mem_flatten.1 he
    rw [List.eq_of_mem_replicate hes] at hmem
    exact busyTests_blocking s.cfg ref _ e hmem
  obtain ⟨t, hexec, hstands, hce, hev⟩ := scan_stands (by simp) h hu hsw.events hall (by
    rw [blockingCalls_replicate, sweepEvents_blocking, windowChannels_length, Nat.mul_left_comm]
    exact hn)
  have hclear : ∀ c : Channel, s.clearHits.hit[c] = 0 := s.readHit_clearHits
  obtain ⟨t', ht', hrd, hwr, hhit⟩ := sweepRepeat_of_hang (ref := ref) (b := s.cfg.winStart)
    (m := s.cfg.winCount) s.cfg.sweepsPerCycle (s := s.clearHits.fairly) rfl
    (fun c => by rw [State.fairly_hit, hclear]; simpa using hk) hn
  have hs : s.clearHits.fairly.hangingAfter n = s.clearHits :=
    State.hangingAfter_of_eq (s := s.clearHits) h
  rw [hs] at ht'
  obtain rfl : t = t' := by
    have hboth := hexec.symm.trans (exec_cycle_of_hung hf hd ht')
    injection hboth
  refine ⟨t, hexec, hstands, hce, hev, hwr, hrd, fun c => ?_⟩
  rw [hhit c, State.fairly_hit, hclear]
  exact Nat.zero_add _

end

/-- Settles O54: standing in a call, a scan has begun one test more than the `n / 3` it has counted,
and what it has issued are the first calls of its run with every call answered. -/
theorem unansweredCallInAScanKeepsTheCountsSoFar :
    Obligations.UnansweredCallInAScanKeepsTheCountsSoFar := by
  refine fun s ref n hf hd h => ⟨fun b m hn => ?_, ?_⟩
  · rw [← windowChannels_eq_filter]
    rw [← windowSize_eq] at hn
    exact exec_sweep_of_hang b m hf hd h hn
  · rintro _ _ _ _ rfl rfl rfl rfl hwf hn
    obtain ⟨_, _, hk, _⟩ := s.cfg.wellFormed_iff.1 hwf
    rw [← windowChannels_eq_filter]
    simp only [← windowSize_eq] at hn ⊢
    exact exec_cycle_of_hang hf hd h hk hn

end Sys2Proof.Machine
